-- ==== Sys2Proof/Word.lean ====
section
/-! DEFINITION. The widths of the Lox01 core: 32-bit register patterns and 8-bit bytes (00_scope R6, R9). -/

namespace Sys2Proof

/-- A 32-bit pattern: a register, an address, an immediate (00_scope R9). Arithmetic on it is modulo `2^32`,
the spec's `trunc32`. -/
abbrev Word := BitVec 32

/-- A byte, the smallest addressable unit (10_state R37). -/
abbrev Byte := BitVec 8

/-- `trunc32(t)` of an exact integer (00_scope R9). -/
def trunc32 (t : Int) : Word := BitVec.ofInt 32 t

end Sys2Proof
end

