-- ==== Sys2Proof/Syntax.lean ====
section
/-! DEFINITION. The instructions of the Lox01 core: one constructor per row of the opcode table (30_encoding R94). -/

namespace Sys2Proof

/-- The eight registers a 3-bit field names (10_state R21, R26). Their numbers are in `Reg.toBits`. -/
inductive Reg where
  | r1
  | r2
  | r3
  | r4
  | rg
  | sp
  | pc
  | zero
deriving DecidableEq, Repr, Inhabited

/-- The four registers a 2-bit index field names (10_state R26, 30_encoding R89). -/
inductive IdxReg where
  | r1
  | r2
  | r3
  | r4
deriving DecidableEq, Repr, Inhabited

/-- The register an index field names. -/
def IdxReg.toReg : IdxReg → Reg
  | .r1 => .r1
  | .r2 => .r2
  | .r3 => .r3
  | .r4 => .r4

/-- An instruction with its operands as the ten layouts of 30_encoding R75 give them. Displacements and immediates are
the bit patterns of the fields; a `Flag` operand is its whole byte, since its illegal values fault only in the
instruction (R97, R278). -/
inductive Instr where
  -- system, stack, register jump
  /-- `HALT`: opcode `0x01`, shape `None`, rule R276. -/
  | halt
  /-- `RET`: opcode `0x02`, shape `None`, rule R250. -/
  | ret
  /-- `PUSHF`: opcode `0x03`, shape `None`, rule R263. -/
  | pushf
  /-- `POPF`: opcode `0x04`, shape `None`, rule R264. -/
  | popf
  /-- `INT`: opcode `0x05`, shape `IntIndex`, rule R277. -/
  | int (n : Byte)
  /-- `SETF`: opcode `0x06`, shape `Flag`, rule R278. -/
  | setf (k : Byte)
  /-- `CLRF`: opcode `0x07`, shape `Flag`, rule R279. -/
  | clrf (k : Byte)
  /-- `PUSH`: opcode `0x08`, shape `Reg`, rule R261. -/
  | push (reg : Reg)
  /-- `POP`: opcode `0x09`, shape `Reg`, rule R262. -/
  | pop (reg : Reg)
  /-- `JMP.R`: opcode `0x0A`, shape `Reg`, rule R218. -/
  | jmpR (reg : Reg)
  -- integer ALU (40_alu_integer)
  /-- `ADD`: opcode `0x10`, shape `TwoRegs`, rule R122. -/
  | add (dest src : Reg)
  /-- `ADC`: opcode `0x11`, shape `TwoRegs`, rule R123. -/
  | adc (dest src : Reg)
  /-- `SUB`: opcode `0x12`, shape `TwoRegs`, rule R124. -/
  | sub (dest src : Reg)
  /-- `SBB`: opcode `0x13`, shape `TwoRegs`, rule R125. -/
  | sbb (dest src : Reg)
  /-- `CMP`: opcode `0x14`, shape `TwoRegs`, rule R126. -/
  | cmp (dest src : Reg)
  /-- `MUL`: opcode `0x15`, shape `TwoRegs`, rule R127. -/
  | mul (dest src : Reg)
  /-- `UMUL`: opcode `0x16`, shape `TwoRegs`, rule R128. -/
  | umul (dest src : Reg)
  /-- `DIV`: opcode `0x17`, shape `TwoRegs`, rule R129. -/
  | div (dest src : Reg)
  /-- `UDIV`: opcode `0x18`, shape `TwoRegs`, rule R130. -/
  | udiv (dest src : Reg)
  /-- `REM`: opcode `0x19`, shape `TwoRegs`, rule R131. -/
  | rem (dest src : Reg)
  /-- `AND`: opcode `0x1A`, shape `TwoRegs`, rule R132. -/
  | and (dest src : Reg)
  /-- `OR`: opcode `0x1B`, shape `TwoRegs`, rule R133. -/
  | or (dest src : Reg)
  /-- `XOR`: opcode `0x1C`, shape `TwoRegs`, rule R134. -/
  | xor (dest src : Reg)
  /-- `SHR`: opcode `0x1D`, shape `TwoRegs`, rule R135. -/
  | shr (dest src : Reg)
  /-- `SAR`: opcode `0x1E`, shape `TwoRegs`, rule R136. -/
  | sar (dest src : Reg)
  /-- `SHL`: opcode `0x1F`, shape `TwoRegs`, rule R137. -/
  | shl (dest src : Reg)
  /-- `ROL`: opcode `0x20`, shape `TwoRegs`, rule R138. -/
  | rol (dest src : Reg)
  /-- `ROR`: opcode `0x21`, shape `TwoRegs`, rule R139. -/
  | ror (dest src : Reg)
  -- float ALU (41_alu_float)
  /-- `FADD`: opcode `0x28`, shape `TwoRegs`, rule R153. -/
  | fadd (dest src : Reg)
  /-- `FSUB`: opcode `0x29`, shape `TwoRegs`, rule R154. -/
  | fsub (dest src : Reg)
  /-- `FMUL`: opcode `0x2A`, shape `TwoRegs`, rule R155. -/
  | fmul (dest src : Reg)
  /-- `FDIV`: opcode `0x2B`, shape `TwoRegs`, rule R156. -/
  | fdiv (dest src : Reg)
  /-- `FCMP`: opcode `0x2C`, shape `TwoRegs`, rule R157. -/
  | fcmp (dest src : Reg)
  -- register and immediate moves (42_moves)
  /-- `MOV.RR`: opcode `0x30`, shape `TwoRegs`, rule R165. -/
  | movRR (dest src : Reg)
  /-- `MOV.RI`: opcode `0x31`, shape `Imm32ToReg`, rule R166. -/
  | movRI (dest : Reg) (imm : Word)
  -- displacement control transfers (43_control)
  /-- `JMP.16`: opcode `0x40`, shape `JmpDest16`, rule R219. -/
  | jmp16 (disp : BitVec 16)
  /-- `JMP.32`: opcode `0x41`, shape `JmpDest32`, rule R220. -/
  | jmp32 (disp : Word)
  /-- `JZ.16`: opcode `0x42`, shape `JmpDest16`, rule R221. -/
  | jz16 (disp : BitVec 16)
  /-- `JZ.32`: opcode `0x43`, shape `JmpDest32`, rule R222. -/
  | jz32 (disp : Word)
  /-- `JNZ.16`: opcode `0x44`, shape `JmpDest16`, rule R223. -/
  | jnz16 (disp : BitVec 16)
  /-- `JNZ.32`: opcode `0x45`, shape `JmpDest32`, rule R224. -/
  | jnz32 (disp : Word)
  /-- `JG.16`: opcode `0x46`, shape `JmpDest16`, rule R225. -/
  | jg16 (disp : BitVec 16)
  /-- `JG.32`: opcode `0x47`, shape `JmpDest32`, rule R226. -/
  | jg32 (disp : Word)
  /-- `JGE.16`: opcode `0x48`, shape `JmpDest16`, rule R227. -/
  | jge16 (disp : BitVec 16)
  /-- `JGE.32`: opcode `0x49`, shape `JmpDest32`, rule R228. -/
  | jge32 (disp : Word)
  /-- `JL.16`: opcode `0x4A`, shape `JmpDest16`, rule R229. -/
  | jl16 (disp : BitVec 16)
  /-- `JL.32`: opcode `0x4B`, shape `JmpDest32`, rule R230. -/
  | jl32 (disp : Word)
  /-- `JLE.16`: opcode `0x4C`, shape `JmpDest16`, rule R231. -/
  | jle16 (disp : BitVec 16)
  /-- `JLE.32`: opcode `0x4D`, shape `JmpDest32`, rule R232. -/
  | jle32 (disp : Word)
  /-- `JA.16`: opcode `0x4E`, shape `JmpDest16`, rule R233. -/
  | ja16 (disp : BitVec 16)
  /-- `JA.32`: opcode `0x4F`, shape `JmpDest32`, rule R234. -/
  | ja32 (disp : Word)
  /-- `JAE.16`: opcode `0x50`, shape `JmpDest16`, rule R235. -/
  | jae16 (disp : BitVec 16)
  /-- `JAE.32`: opcode `0x51`, shape `JmpDest32`, rule R236. -/
  | jae32 (disp : Word)
  /-- `JB.16`: opcode `0x52`, shape `JmpDest16`, rule R237. -/
  | jb16 (disp : BitVec 16)
  /-- `JB.32`: opcode `0x53`, shape `JmpDest32`, rule R238. -/
  | jb32 (disp : Word)
  /-- `JBE.16`: opcode `0x54`, shape `JmpDest16`, rule R239. -/
  | jbe16 (disp : BitVec 16)
  /-- `JBE.32`: opcode `0x55`, shape `JmpDest32`, rule R240. -/
  | jbe32 (disp : Word)
  /-- `JO.16`: opcode `0x56`, shape `JmpDest16`, rule R241. -/
  | jo16 (disp : BitVec 16)
  /-- `JO.32`: opcode `0x57`, shape `JmpDest32`, rule R242. -/
  | jo32 (disp : Word)
  /-- `JNO.16`: opcode `0x58`, shape `JmpDest16`, rule R243. -/
  | jno16 (disp : BitVec 16)
  /-- `JNO.32`: opcode `0x59`, shape `JmpDest32`, rule R244. -/
  | jno32 (disp : Word)
  /-- `CALL.16`: opcode `0x5A`, shape `JmpDest16`, rule R245. -/
  | call16 (disp : BitVec 16)
  /-- `CALL.32`: opcode `0x5B`, shape `JmpDest32`, rule R246. -/
  | call32 (disp : Word)
  -- memory moves (42_moves)
  /-- `LD8.X1`: opcode `0x80`, shape `ModRR`, rule R167. -/
  | ld8x1 (data base : Reg) (index : IdxReg)
  /-- `LD8.X2`: opcode `0x81`, shape `ModRR`, rule R168. -/
  | ld8x2 (data base : Reg) (index : IdxReg)
  /-- `LD8.X4`: opcode `0x82`, shape `ModRR`, rule R169. -/
  | ld8x4 (data base : Reg) (index : IdxReg)
  /-- `LD8.X1.D`: opcode `0x84`, shape `ModRR+Offset32`, rule R170. -/
  | ld8x1d (data base : Reg) (index : IdxReg) (disp : Word)
  /-- `LD8.X2.D`: opcode `0x85`, shape `ModRR+Offset32`, rule R171. -/
  | ld8x2d (data base : Reg) (index : IdxReg) (disp : Word)
  /-- `LD8.X4.D`: opcode `0x86`, shape `ModRR+Offset32`, rule R172. -/
  | ld8x4d (data base : Reg) (index : IdxReg) (disp : Word)
  /-- `ST8.X1`: opcode `0x88`, shape `ModRR`, rule R173. -/
  | st8x1 (data base : Reg) (index : IdxReg)
  /-- `ST8.X2`: opcode `0x89`, shape `ModRR`, rule R174. -/
  | st8x2 (data base : Reg) (index : IdxReg)
  /-- `ST8.X4`: opcode `0x8A`, shape `ModRR`, rule R175. -/
  | st8x4 (data base : Reg) (index : IdxReg)
  /-- `ST8.X1.D`: opcode `0x8C`, shape `ModRR+Offset32`, rule R176. -/
  | st8x1d (data base : Reg) (index : IdxReg) (disp : Word)
  /-- `ST8.X2.D`: opcode `0x8D`, shape `ModRR+Offset32`, rule R177. -/
  | st8x2d (data base : Reg) (index : IdxReg) (disp : Word)
  /-- `ST8.X4.D`: opcode `0x8E`, shape `ModRR+Offset32`, rule R178. -/
  | st8x4d (data base : Reg) (index : IdxReg) (disp : Word)
  /-- `LD16.X1`: opcode `0x90`, shape `ModRR`, rule R179. -/
  | ld16x1 (data base : Reg) (index : IdxReg)
  /-- `LD16.X2`: opcode `0x91`, shape `ModRR`, rule R180. -/
  | ld16x2 (data base : Reg) (index : IdxReg)
  /-- `LD16.X4`: opcode `0x92`, shape `ModRR`, rule R181. -/
  | ld16x4 (data base : Reg) (index : IdxReg)
  /-- `LD16.X1.D`: opcode `0x94`, shape `ModRR+Offset32`, rule R182. -/
  | ld16x1d (data base : Reg) (index : IdxReg) (disp : Word)
  /-- `LD16.X2.D`: opcode `0x95`, shape `ModRR+Offset32`, rule R183. -/
  | ld16x2d (data base : Reg) (index : IdxReg) (disp : Word)
  /-- `LD16.X4.D`: opcode `0x96`, shape `ModRR+Offset32`, rule R184. -/
  | ld16x4d (data base : Reg) (index : IdxReg) (disp : Word)
  /-- `ST16.X1`: opcode `0x98`, shape `ModRR`, rule R185. -/
  | st16x1 (data base : Reg) (index : IdxReg)
  /-- `ST16.X2`: opcode `0x99`, shape `ModRR`, rule R186. -/
  | st16x2 (data base : Reg) (index : IdxReg)
  /-- `ST16.X4`: opcode `0x9A`, shape `ModRR`, rule R187. -/
  | st16x4 (data base : Reg) (index : IdxReg)
  /-- `ST16.X1.D`: opcode `0x9C`, shape `ModRR+Offset32`, rule R188. -/
  | st16x1d (data base : Reg) (index : IdxReg) (disp : Word)
  /-- `ST16.X2.D`: opcode `0x9D`, shape `ModRR+Offset32`, rule R189. -/
  | st16x2d (data base : Reg) (index : IdxReg) (disp : Word)
  /-- `ST16.X4.D`: opcode `0x9E`, shape `ModRR+Offset32`, rule R190. -/
  | st16x4d (data base : Reg) (index : IdxReg) (disp : Word)
  /-- `LD32.X1`: opcode `0xA0`, shape `ModRR`, rule R191. -/
  | ld32x1 (data base : Reg) (index : IdxReg)
  /-- `LD32.X2`: opcode `0xA1`, shape `ModRR`, rule R192. -/
  | ld32x2 (data base : Reg) (index : IdxReg)
  /-- `LD32.X4`: opcode `0xA2`, shape `ModRR`, rule R193. -/
  | ld32x4 (data base : Reg) (index : IdxReg)
  /-- `LD32.X1.D`: opcode `0xA4`, shape `ModRR+Offset32`, rule R194. -/
  | ld32x1d (data base : Reg) (index : IdxReg) (disp : Word)
  /-- `LD32.X2.D`: opcode `0xA5`, shape `ModRR+Offset32`, rule R195. -/
  | ld32x2d (data base : Reg) (index : IdxReg) (disp : Word)
  /-- `LD32.X4.D`: opcode `0xA6`, shape `ModRR+Offset32`, rule R196. -/
  | ld32x4d (data base : Reg) (index : IdxReg) (disp : Word)
  /-- `ST32.X1`: opcode `0xA8`, shape `ModRR`, rule R197. -/
  | st32x1 (data base : Reg) (index : IdxReg)
  /-- `ST32.X2`: opcode `0xA9`, shape `ModRR`, rule R198. -/
  | st32x2 (data base : Reg) (index : IdxReg)
  /-- `ST32.X4`: opcode `0xAA`, shape `ModRR`, rule R199. -/
  | st32x4 (data base : Reg) (index : IdxReg)
  /-- `ST32.X1.D`: opcode `0xAC`, shape `ModRR+Offset32`, rule R200. -/
  | st32x1d (data base : Reg) (index : IdxReg) (disp : Word)
  /-- `ST32.X2.D`: opcode `0xAD`, shape `ModRR+Offset32`, rule R201. -/
  | st32x2d (data base : Reg) (index : IdxReg) (disp : Word)
  /-- `ST32.X4.D`: opcode `0xAE`, shape `ModRR+Offset32`, rule R202. -/
  | st32x4d (data base : Reg) (index : IdxReg) (disp : Word)
deriving DecidableEq, Repr

end Sys2Proof
end

