-- ==== Sys2Proof/WellFormed.lean ====
section
/-! DEFINITION. Which instructions are well formed. Every operand field but one is a type with no illegal value; the
flag index is legal from 0 to 4 (30_encoding R85). -/

namespace Sys2Proof

/-- A flag index names a flag (30_encoding R85, R97): all eight bits of the operand byte are compared. -/
def flagIndexOk (k : Byte) : Bool := decide (k.toNat ≤ 4)

/-- The operands are in the legal ranges of their shape (30_encoding R82, R85, R92). -/
def Instr.wf : Instr → Bool
  | .setf k => flagIndexOk k
  | .clrf k => flagIndexOk k
  | .halt | .ret | .pushf | .popf => true
  | .push _ | .pop _ | .jmpR _ => true
  | .add _ _ | .adc _ _ | .sub _ _ | .sbb _ _ | .cmp _ _ | .mul _ _ | .umul _ _ | .div _ _
  | .udiv _ _ | .rem _ _ | .and _ _ | .or _ _ | .xor _ _ | .shr _ _ | .sar _ _ | .shl _ _
  | .rol _ _ | .ror _ _ | .fadd _ _ | .fsub _ _ | .fmul _ _ | .fdiv _ _ | .fcmp _ _ | .movRR _ _ => true
  | .int _ => true
  | .movRI _ _ => true
  | .ld8x1 _ _ _ | .ld8x2 _ _ _ | .ld8x4 _ _ _ | .st8x1 _ _ _ | .st8x2 _ _ _ | .st8x4 _ _ _ | .ld16x1 _ _ _ | .ld16x2 _ _ _
  | .ld16x4 _ _ _ | .st16x1 _ _ _ | .st16x2 _ _ _ | .st16x4 _ _ _ | .ld32x1 _ _ _ | .ld32x2 _ _ _ | .ld32x4 _ _ _ | .st32x1 _ _ _
  | .st32x2 _ _ _ | .st32x4 _ _ _ => true
  | .ld8x1d _ _ _ _ | .ld8x2d _ _ _ _ | .ld8x4d _ _ _ _ | .st8x1d _ _ _ _ | .st8x2d _ _ _ _ | .st8x4d _ _ _ _ | .ld16x1d _ _ _ _ | .ld16x2d _ _ _ _
  | .ld16x4d _ _ _ _ | .st16x1d _ _ _ _ | .st16x2d _ _ _ _ | .st16x4d _ _ _ _ | .ld32x1d _ _ _ _ | .ld32x2d _ _ _ _ | .ld32x4d _ _ _ _ | .st32x1d _ _ _ _
  | .st32x2d _ _ _ _ | .st32x4d _ _ _ _ => true
  | .jmp16 _ | .jz16 _ | .jnz16 _ | .jg16 _ | .jge16 _ | .jl16 _ | .jle16 _ | .ja16 _
  | .jae16 _ | .jb16 _ | .jbe16 _ | .jo16 _ | .jno16 _ | .call16 _ => true
  | .jmp32 _ | .jz32 _ | .jnz32 _ | .jg32 _ | .jge32 _ | .jl32 _ | .jle32 _ | .ja32 _
  | .jae32 _ | .jb32 _ | .jbe32 _ | .jo32 _ | .jno32 _ | .call32 _ => true

end Sys2Proof
end

