-- ==== Sys2Proof/Decode.lean ====
section
/-! DEFINITION. The codec (30_encoding): register numbers, the ModRR byte, the operand shapes, the opcode map, the
decoder, total on any bytes and rejecting by name, and after it the encoder. -/

namespace Sys2Proof

/-! ### Register numbers (10_state R21) -/

/-- The number of a register in a 3-bit field: R1 to R4 are 0 to 3, RG 4, SP 5, PC 6, ZERO 7 (10_state R21). -/
def Reg.toBits : Reg → BitVec 3
  | .r1 => 0#3
  | .r2 => 1#3
  | .r3 => 2#3
  | .r4 => 3#3
  | .rg => 4#3
  | .sp => 5#3
  | .pc => 6#3
  | .zero => 7#3

/-- The register a 3-bit field names: the numbering of `Reg.toBits` read backwards. -/
def Reg.ofBits (b : BitVec 3) : Reg :=
  match b.toNat with
  | 0 => .r1
  | 1 => .r2
  | 2 => .r3
  | 3 => .r4
  | 4 => .rg
  | 5 => .sp
  | 6 => .pc
  | _ => .zero

/-- The number of a register in the 2-bit index field (10_state R26). -/
def IdxReg.toBits : IdxReg → BitVec 2
  | .r1 => 0#2
  | .r2 => 1#2
  | .r3 => 2#2
  | .r4 => 3#2

/-- The index register a 2-bit field names; every value is legal (30_encoding R82). -/
def IdxReg.ofBits (b : BitVec 2) : IdxReg :=
  match b.toNat with
  | 0 => .r1
  | 1 => .r2
  | 2 => .r3
  | _ => .r4

/-! ### The ModRR byte (30_encoding R82) -/

/-- The three fields of a ModRR byte as bits. -/
structure ModRR where
  destOrSrc : BitVec 3
  base : BitVec 3
  index : BitVec 2
deriving DecidableEq, Repr

/-- `pack_modrr` (30_encoding R82): `destOrSrc` in bits 2:0, `base` in bits 5:3, `index` in bits 7:6. -/
def packModRR (m : ModRR) : Byte := m.index ++ m.base ++ m.destOrSrc

/-- `unpack_modrr` (30_encoding R82), total on all 256 bytes. -/
def unpackModRR (b : Byte) : ModRR :=
  { destOrSrc := b.extractLsb' 0 3, base := b.extractLsb' 3 3, index := b.extractLsb' 6 2 }

/-! ### Multi-byte fields, little-endian (00_scope R10, 30_encoding R91) -/

/-- A 16-bit field from its bytes in address order. -/
def le16 (b0 b1 : Byte) : BitVec 16 := b1 ++ b0

/-- A 32-bit field from its bytes in address order. -/
def le32 (b0 b1 b2 b3 : Byte) : Word := b3 ++ b2 ++ b1 ++ b0

/-- The bytes of a 16-bit value in address order. -/
def bytes16 (v : BitVec 16) : List Byte := [v.extractLsb' 0 8, v.extractLsb' 8 8]

/-- The bytes of a 32-bit value in address order. -/
def bytes32 (v : Word) : List Byte :=
  [v.extractLsb' 0 8, v.extractLsb' 8 8, v.extractLsb' 16 8, v.extractLsb' 24 8]

/-! ### Operand shapes (30_encoding R75, R79 to R90) -/

/-- The layout of the bytes after the opcode, with the instruction they complete. -/
inductive Form where
  /-- `None` (R79). -/
  | none (mk : Instr)
  /-- `Reg` (R80). -/
  | reg (mk : Reg → Instr)
  /-- `TwoRegs` (R81): destination in field 1, source in field 2. -/
  | twoRegs (mk : Reg → Reg → Instr)
  /-- `ModRR`, a memory operand with no offset (R83). -/
  | modRR (mk : Reg → Reg → IdxReg → Instr)
  /-- `ModRR+Offset32` (R84). -/
  | modRROff (mk : Reg → Reg → IdxReg → Word → Instr)
  /-- `Flag` (R85). -/
  | flag (mk : Byte → Instr)
  /-- `Imm32ToReg` (R86). -/
  | imm32ToReg (mk : Reg → Word → Instr)
  /-- `JmpDest16` (R87). -/
  | jmpDest16 (mk : BitVec 16 → Instr)
  /-- `JmpDest32` (R87). -/
  | jmpDest32 (mk : Word → Instr)
  /-- `IntIndex` (R90). -/
  | intIndex (mk : Byte → Instr)

/-- How many bytes follow the opcode (30_encoding R75, R99). -/
def Form.operandBytes : Form → Nat
  | .none _ => 0
  | .reg _ => 1
  | .twoRegs _ => 1
  | .modRR _ => 1
  | .modRROff _ => 5
  | .flag _ => 1
  | .imm32ToReg _ => 5
  | .jmpDest16 _ => 2
  | .jmpDest32 _ => 4
  | .intIndex _ => 1

/-- Reads the operand bytes: the instruction and the bytes that follow it, or nothing if there are too few. Unused bits
(30_encoding R96) are not looked at. -/
def Form.build : Form → List Byte → Option (Instr × List Byte)
  | .none mk, rest => some (mk, rest)
  | .reg mk, b :: rest => some (mk (Reg.ofBits (b.extractLsb' 0 3)), rest)
  | .twoRegs mk, b :: rest =>
    some (mk (Reg.ofBits (unpackModRR b).destOrSrc) (Reg.ofBits (unpackModRR b).base), rest)
  | .modRR mk, b :: rest =>
    some (mk (Reg.ofBits (unpackModRR b).destOrSrc) (Reg.ofBits (unpackModRR b).base)
      (IdxReg.ofBits (unpackModRR b).index), rest)
  | .modRROff mk, b :: d0 :: d1 :: d2 :: d3 :: rest =>
    some (mk (Reg.ofBits (unpackModRR b).destOrSrc) (Reg.ofBits (unpackModRR b).base)
      (IdxReg.ofBits (unpackModRR b).index) (le32 d0 d1 d2 d3), rest)
  | .flag mk, b :: rest => some (mk b, rest)
  | .imm32ToReg mk, b :: d0 :: d1 :: d2 :: d3 :: rest =>
    some (mk (Reg.ofBits (b.extractLsb' 0 3)) (le32 d0 d1 d2 d3), rest)
  | .jmpDest16 mk, d0 :: d1 :: rest => some (mk (le16 d0 d1), rest)
  | .jmpDest32 mk, d0 :: d1 :: d2 :: d3 :: rest => some (mk (le32 d0 d1 d2 d3), rest)
  | .intIndex mk, b :: rest => some (mk b, rest)
  | _, _ => Option.none

/-! ### The opcode map (30_encoding R93, R94) -/

/-- System, stack and register jump (30_encoding R93, R94). -/
def opmapSystem : List (Byte × Form) :=
  [
    (0x01#8, .none .halt), (0x02#8, .none .ret),
    (0x03#8, .none .pushf), (0x04#8, .none .popf),
    (0x05#8, .intIndex .int), (0x06#8, .flag .setf),
    (0x07#8, .flag .clrf), (0x08#8, .reg .push),
    (0x09#8, .reg .pop), (0x0A#8, .reg .jmpR)
  ]

/-- Integer ALU, `0x10 + n` (30_encoding R93, R94). -/
def opmapAlu : List (Byte × Form) :=
  [
    (0x10#8, .twoRegs .add), (0x11#8, .twoRegs .adc),
    (0x12#8, .twoRegs .sub), (0x13#8, .twoRegs .sbb),
    (0x14#8, .twoRegs .cmp), (0x15#8, .twoRegs .mul),
    (0x16#8, .twoRegs .umul), (0x17#8, .twoRegs .div),
    (0x18#8, .twoRegs .udiv), (0x19#8, .twoRegs .rem),
    (0x1A#8, .twoRegs .and), (0x1B#8, .twoRegs .or),
    (0x1C#8, .twoRegs .xor), (0x1D#8, .twoRegs .shr),
    (0x1E#8, .twoRegs .sar), (0x1F#8, .twoRegs .shl),
    (0x20#8, .twoRegs .rol), (0x21#8, .twoRegs .ror)
  ]

/-- Float ALU, `0x28 + n`, and the register and immediate moves (30_encoding R93, R94). -/
def opmapFloatMove : List (Byte × Form) :=
  [
    (0x28#8, .twoRegs .fadd), (0x29#8, .twoRegs .fsub),
    (0x2A#8, .twoRegs .fmul), (0x2B#8, .twoRegs .fdiv),
    (0x2C#8, .twoRegs .fcmp), (0x30#8, .twoRegs .movRR),
    (0x31#8, .imm32ToReg .movRI)
  ]

/-- Jumps, `0b010c_cccw`: `w` = 0 for a 16-bit, 1 for a 32-bit displacement (30_encoding R93, R94). -/
def opmapJump : List (Byte × Form) :=
  [
    (0x40#8, .jmpDest16 .jmp16), (0x41#8, .jmpDest32 .jmp32),
    (0x42#8, .jmpDest16 .jz16), (0x43#8, .jmpDest32 .jz32),
    (0x44#8, .jmpDest16 .jnz16), (0x45#8, .jmpDest32 .jnz32),
    (0x46#8, .jmpDest16 .jg16), (0x47#8, .jmpDest32 .jg32),
    (0x48#8, .jmpDest16 .jge16), (0x49#8, .jmpDest32 .jge32),
    (0x4A#8, .jmpDest16 .jl16), (0x4B#8, .jmpDest32 .jl32),
    (0x4C#8, .jmpDest16 .jle16), (0x4D#8, .jmpDest32 .jle32),
    (0x4E#8, .jmpDest16 .ja16), (0x4F#8, .jmpDest32 .ja32),
    (0x50#8, .jmpDest16 .jae16), (0x51#8, .jmpDest32 .jae32),
    (0x52#8, .jmpDest16 .jb16), (0x53#8, .jmpDest32 .jb32),
    (0x54#8, .jmpDest16 .jbe16), (0x55#8, .jmpDest32 .jbe32),
    (0x56#8, .jmpDest16 .jo16), (0x57#8, .jmpDest32 .jo32),
    (0x58#8, .jmpDest16 .jno16), (0x59#8, .jmpDest32 .jno32)
  ]

/-- Calls, `0b010c_cccw` with `cccc` = 13 (30_encoding R93, R94). -/
def opmapCall : List (Byte × Form) :=
  [
    (0x5A#8, .jmpDest16 .call16), (0x5B#8, .jmpDest32 .call32)
  ]

/-- Memory moves of 8 bits, `0b1000_domm` (30_encoding R93, R94). -/
def opmapMove8 : List (Byte × Form) :=
  [
    (0x80#8, .modRR .ld8x1), (0x81#8, .modRR .ld8x2),
    (0x82#8, .modRR .ld8x4), (0x84#8, .modRROff .ld8x1d),
    (0x85#8, .modRROff .ld8x2d), (0x86#8, .modRROff .ld8x4d),
    (0x88#8, .modRR .st8x1), (0x89#8, .modRR .st8x2),
    (0x8A#8, .modRR .st8x4), (0x8C#8, .modRROff .st8x1d),
    (0x8D#8, .modRROff .st8x2d), (0x8E#8, .modRROff .st8x4d)
  ]

/-- Memory moves of 16 bits, `0b1001_domm` (30_encoding R93, R94). -/
def opmapMove16 : List (Byte × Form) :=
  [
    (0x90#8, .modRR .ld16x1), (0x91#8, .modRR .ld16x2),
    (0x92#8, .modRR .ld16x4), (0x94#8, .modRROff .ld16x1d),
    (0x95#8, .modRROff .ld16x2d), (0x96#8, .modRROff .ld16x4d),
    (0x98#8, .modRR .st16x1), (0x99#8, .modRR .st16x2),
    (0x9A#8, .modRR .st16x4), (0x9C#8, .modRROff .st16x1d),
    (0x9D#8, .modRROff .st16x2d), (0x9E#8, .modRROff .st16x4d)
  ]

/-- Memory moves of 32 bits, `0b1010_domm` (30_encoding R93, R94). -/
def opmapMove32 : List (Byte × Form) :=
  [
    (0xA0#8, .modRR .ld32x1), (0xA1#8, .modRR .ld32x2),
    (0xA2#8, .modRR .ld32x4), (0xA4#8, .modRROff .ld32x1d),
    (0xA5#8, .modRROff .ld32x2d), (0xA6#8, .modRROff .ld32x4d),
    (0xA8#8, .modRR .st32x1), (0xA9#8, .modRR .st32x2),
    (0xAA#8, .modRR .st32x4), (0xAC#8, .modRROff .st32x1d),
    (0xAD#8, .modRROff .st32x2d), (0xAE#8, .modRROff .st32x4d)
  ]

/-- `OPMAP`: the 99 rows of 30_encoding R94; every other opcode byte is unassigned. -/
def opmapRows : List (Byte × Form) :=
  opmapSystem ++ opmapAlu ++ opmapFloatMove ++ opmapJump ++
  opmapCall ++ opmapMove8 ++ opmapMove16 ++ opmapMove32

/-- The first row of a list with the opcode. -/
def findForm (op : Byte) : List (Byte × Form) → Option Form
  | [] => Option.none
  | row :: rows => if row.1 = op then some row.2 else findForm op rows

/-- The opcode byte alone selects the instruction and its shape (30_encoding R76); nothing for an unknown opcode
(R95). -/
def formOf (op : Byte) : Option Form := findForm op opmapRows

/-! ### The decoder -/

/-- Why bytes are no instruction. -/
inductive DecodeError where
  /-- There is no opcode byte. -/
  | noOpcode
  /-- The opcode byte is not in `OPMAP` (30_encoding R95). -/
  | unknownOpcode (op : Byte)
  /-- Fewer bytes than the opcode's shape has (R75). -/
  | truncated (op : Byte)
deriving DecidableEq, Repr

/-- Reads one instruction from bytes in address order and gives the bytes after it (30_encoding R76). -/
def decode : List Byte → Except DecodeError (Instr × List Byte)
  | [] => .error .noOpcode
  | op :: rest =>
    match formOf op with
    | Option.none => .error (.unknownOpcode op)
    | some form =>
      match form.build rest with
      | Option.none => .error (.truncated op)
      | some r => .ok r

/-- The bytes of an instruction given as the number the opcode table numbers its bits by: byte `k` is bits
`8k+7:8k`, every bit above `nbits` is 0, up to the longest instruction, 6 bytes. -/
def tableBytes (nbits w : Nat) : List Byte :=
  (List.range 6).map fun k => BitVec.ofNat 8 ((w % 2 ^ nbits) >>> (8 * k))

/-- The instruction the decoder reads from an opcode-table word. -/
def decodeTableWord (nbits w : Nat) : Option Instr :=
  match decode (tableBytes nbits w) with
  | .ok r => some r.1
  | .error _ => Option.none

/-! ### The encoder: the layouts of 30_encoding R79 to R90, unused bits 0 -/

/-- `None` (R79). -/
def encNone (op : Byte) : List Byte := [op]

/-- `Reg` (R80). -/
def encReg (op : Byte) (reg : Reg) : List Byte := [op, packModRR ⟨reg.toBits, 0#3, 0#2⟩]

/-- `TwoRegs` (R81). -/
def encTwoRegs (op : Byte) (dest src : Reg) : List Byte := [op, packModRR ⟨dest.toBits, src.toBits, 0#2⟩]

/-- `ModRR` (R83). -/
def encModRR (op : Byte) (data base : Reg) (index : IdxReg) : List Byte :=
  [op, packModRR ⟨data.toBits, base.toBits, index.toBits⟩]

/-- `ModRR+Offset32` (R84). -/
def encModRROff (op : Byte) (data base : Reg) (index : IdxReg) (disp : Word) : List Byte :=
  encModRR op data base index ++ bytes32 disp

/-- `Flag` (R85) and `IntIndex` (R90): one whole operand byte. -/
def encByte (op : Byte) (b : Byte) : List Byte := [op, b]

/-- `Imm32ToReg` (R86). -/
def encImm32ToReg (op : Byte) (dest : Reg) (imm : Word) : List Byte := encReg op dest ++ bytes32 imm

/-- `JmpDest16` (R87). -/
def encJmpDest16 (op : Byte) (disp : BitVec 16) : List Byte := op :: bytes16 disp

/-- `JmpDest32` (R87). -/
def encJmpDest32 (op : Byte) (disp : Word) : List Byte := op :: bytes32 disp

/-- The bytes of an instruction in address order (30_encoding R94, the "Opcode" and "Shape" columns). -/
def encode : Instr → List Byte
  | .halt => encNone 0x01#8
  | .ret => encNone 0x02#8
  | .pushf => encNone 0x03#8
  | .popf => encNone 0x04#8
  | .int n => encByte 0x05#8 n
  | .setf k => encByte 0x06#8 k
  | .clrf k => encByte 0x07#8 k
  | .push reg => encReg 0x08#8 reg
  | .pop reg => encReg 0x09#8 reg
  | .jmpR reg => encReg 0x0A#8 reg
  | .add dest src => encTwoRegs 0x10#8 dest src
  | .adc dest src => encTwoRegs 0x11#8 dest src
  | .sub dest src => encTwoRegs 0x12#8 dest src
  | .sbb dest src => encTwoRegs 0x13#8 dest src
  | .cmp dest src => encTwoRegs 0x14#8 dest src
  | .mul dest src => encTwoRegs 0x15#8 dest src
  | .umul dest src => encTwoRegs 0x16#8 dest src
  | .div dest src => encTwoRegs 0x17#8 dest src
  | .udiv dest src => encTwoRegs 0x18#8 dest src
  | .rem dest src => encTwoRegs 0x19#8 dest src
  | .and dest src => encTwoRegs 0x1A#8 dest src
  | .or dest src => encTwoRegs 0x1B#8 dest src
  | .xor dest src => encTwoRegs 0x1C#8 dest src
  | .shr dest src => encTwoRegs 0x1D#8 dest src
  | .sar dest src => encTwoRegs 0x1E#8 dest src
  | .shl dest src => encTwoRegs 0x1F#8 dest src
  | .rol dest src => encTwoRegs 0x20#8 dest src
  | .ror dest src => encTwoRegs 0x21#8 dest src
  | .fadd dest src => encTwoRegs 0x28#8 dest src
  | .fsub dest src => encTwoRegs 0x29#8 dest src
  | .fmul dest src => encTwoRegs 0x2A#8 dest src
  | .fdiv dest src => encTwoRegs 0x2B#8 dest src
  | .fcmp dest src => encTwoRegs 0x2C#8 dest src
  | .movRR dest src => encTwoRegs 0x30#8 dest src
  | .movRI dest imm => encImm32ToReg 0x31#8 dest imm
  | .jmp16 disp => encJmpDest16 0x40#8 disp
  | .jmp32 disp => encJmpDest32 0x41#8 disp
  | .jz16 disp => encJmpDest16 0x42#8 disp
  | .jz32 disp => encJmpDest32 0x43#8 disp
  | .jnz16 disp => encJmpDest16 0x44#8 disp
  | .jnz32 disp => encJmpDest32 0x45#8 disp
  | .jg16 disp => encJmpDest16 0x46#8 disp
  | .jg32 disp => encJmpDest32 0x47#8 disp
  | .jge16 disp => encJmpDest16 0x48#8 disp
  | .jge32 disp => encJmpDest32 0x49#8 disp
  | .jl16 disp => encJmpDest16 0x4A#8 disp
  | .jl32 disp => encJmpDest32 0x4B#8 disp
  | .jle16 disp => encJmpDest16 0x4C#8 disp
  | .jle32 disp => encJmpDest32 0x4D#8 disp
  | .ja16 disp => encJmpDest16 0x4E#8 disp
  | .ja32 disp => encJmpDest32 0x4F#8 disp
  | .jae16 disp => encJmpDest16 0x50#8 disp
  | .jae32 disp => encJmpDest32 0x51#8 disp
  | .jb16 disp => encJmpDest16 0x52#8 disp
  | .jb32 disp => encJmpDest32 0x53#8 disp
  | .jbe16 disp => encJmpDest16 0x54#8 disp
  | .jbe32 disp => encJmpDest32 0x55#8 disp
  | .jo16 disp => encJmpDest16 0x56#8 disp
  | .jo32 disp => encJmpDest32 0x57#8 disp
  | .jno16 disp => encJmpDest16 0x58#8 disp
  | .jno32 disp => encJmpDest32 0x59#8 disp
  | .call16 disp => encJmpDest16 0x5A#8 disp
  | .call32 disp => encJmpDest32 0x5B#8 disp
  | .ld8x1 data base index => encModRR 0x80#8 data base index
  | .ld8x2 data base index => encModRR 0x81#8 data base index
  | .ld8x4 data base index => encModRR 0x82#8 data base index
  | .ld8x1d data base index disp => encModRROff 0x84#8 data base index disp
  | .ld8x2d data base index disp => encModRROff 0x85#8 data base index disp
  | .ld8x4d data base index disp => encModRROff 0x86#8 data base index disp
  | .st8x1 data base index => encModRR 0x88#8 data base index
  | .st8x2 data base index => encModRR 0x89#8 data base index
  | .st8x4 data base index => encModRR 0x8A#8 data base index
  | .st8x1d data base index disp => encModRROff 0x8C#8 data base index disp
  | .st8x2d data base index disp => encModRROff 0x8D#8 data base index disp
  | .st8x4d data base index disp => encModRROff 0x8E#8 data base index disp
  | .ld16x1 data base index => encModRR 0x90#8 data base index
  | .ld16x2 data base index => encModRR 0x91#8 data base index
  | .ld16x4 data base index => encModRR 0x92#8 data base index
  | .ld16x1d data base index disp => encModRROff 0x94#8 data base index disp
  | .ld16x2d data base index disp => encModRROff 0x95#8 data base index disp
  | .ld16x4d data base index disp => encModRROff 0x96#8 data base index disp
  | .st16x1 data base index => encModRR 0x98#8 data base index
  | .st16x2 data base index => encModRR 0x99#8 data base index
  | .st16x4 data base index => encModRR 0x9A#8 data base index
  | .st16x1d data base index disp => encModRROff 0x9C#8 data base index disp
  | .st16x2d data base index disp => encModRROff 0x9D#8 data base index disp
  | .st16x4d data base index disp => encModRROff 0x9E#8 data base index disp
  | .ld32x1 data base index => encModRR 0xA0#8 data base index
  | .ld32x2 data base index => encModRR 0xA1#8 data base index
  | .ld32x4 data base index => encModRR 0xA2#8 data base index
  | .ld32x1d data base index disp => encModRROff 0xA4#8 data base index disp
  | .ld32x2d data base index disp => encModRROff 0xA5#8 data base index disp
  | .ld32x4d data base index disp => encModRROff 0xA6#8 data base index disp
  | .st32x1 data base index => encModRR 0xA8#8 data base index
  | .st32x2 data base index => encModRR 0xA9#8 data base index
  | .st32x4 data base index => encModRR 0xAA#8 data base index
  | .st32x1d data base index disp => encModRROff 0xAC#8 data base index disp
  | .st32x2d data base index disp => encModRROff 0xAD#8 data base index disp
  | .st32x4d data base index disp => encModRROff 0xAE#8 data base index disp

end Sys2Proof
end

