-- ==== Sys2Proof/Machine/Data.lean ====
section
/-! DEFINITION. The plain data the machine's state and the open parameters are made of. -/

namespace Sys2Proof.Machine

/-- The six register slots that have storage of their own: R1 to R4, RG and SP (10_state R20, R21). The program
counter is a field of the state; register 7 has no storage (R25). -/
structure Regs where
  r1 : Word
  r2 : Word
  r3 : Word
  r4 : Word
  rg : Word
  sp : Word
deriving DecidableEq, Repr, Inhabited

/-- The five one-bit flags Zero, Carry, Overflow, Negative, Interrupt-Enable (10_state R29). -/
structure Flags where
  z : Bool
  c : Bool
  o : Bool
  n : Bool
  i : Bool
deriving DecidableEq, Repr, Inhabited

/-- All five flags 0 (the spec's `F <- 0`, 00_scope R11). -/
def Flags.zero : Flags := ⟨false, false, false, false, false⟩

/-- The two run modes (10_state R33). -/
inductive Mode where
  | running
  | halted
deriving DecidableEq, Repr, Inhabited

/-- The values of the `FAULT` latch (10_state R34, 60_exceptions R291). -/
inductive Cause where
  | none
  | unknownOpcode
  | divideByZero
  | unmappedAddress
deriving DecidableEq, Repr, Inhabited

/-- A range of mapped addresses, `base` to `base + size - 1` (20_memory R61, R62). -/
structure Region where
  base : Nat
  size : Nat
deriving DecidableEq, Repr, Inhabited

/-- `Region.covers g a` says that address `a` lies in the range. -/
def Region.covers (g : Region) (a : Nat) : Bool := decide (g.base ≤ a) && decide (a < g.base + g.size)

/-- Memory as the listed bytes, in one canonical form: addresses strictly rising and below `2^32`, no byte equal to
what an unlisted address reads as (`Memory.wf`). -/
abbrev Memory := List Host.Cell

/-- The four float operations that store a result, the `op` argument of `FNAN` (41_alu_float R152). -/
inductive FloatOp where
  | fadd
  | fsub
  | fmul
  | fdiv
deriving DecidableEq, Repr, Inhabited

/-- What the interrupt hook may read: registers 0 to 6, the flags, the run mode, and memory with its mapping
(60_exceptions R300). -/
structure HookView where
  regs : Regs
  pc : Word
  flags : Flags
  mode : Mode
  mem : Memory
  mapped : List Region
deriving DecidableEq, Repr, Inhabited

/-- What the interrupt hook may write: registers 0 to 6, the flags, and bytes of memory in the order listed. It has no
place for `MODE`, `FAULT`, `FAULT_INFO` or register 7, so every hook keeps the limits of 60_exceptions R300. -/
structure HookResult where
  regs : Regs
  pc : Word
  flags : Flags
  writes : List (Word × Byte)
deriving DecidableEq, Repr, Inhabited

end Sys2Proof.Machine
end

