-- ==== Sys2Proof/Config.lean ====
section
/-! DEFINITION. The parameters of 00_scope R7: the values this model fixes for one implementation, and, as constants
with no body, the ones the spec leaves open. Nothing can be proved about the value of a constant with no body, so a
claim holds whatever it is. -/

namespace Sys2Proof.Config

open Sys2Proof.Machine

/-- `RESET_PC`, open in the spec (00_scope R7, 70_reset R321). DESIGN CHOICE, unsafe: the example value of
95_test_vectors (log 2). Only `State.reset` and `State.resetEvent` read it. -/
def resetPc : Word := 0x00001000#32

/-- `LOAD_BASE`, open in the spec (70_reset R322). DESIGN CHOICE: the reset address, as R322 asks of a program whose
entry is its first byte (log 3). No step reads it. -/
def loadBase : Word := resetPc

/-- `STACK_DIR = +1`: the stack ascends (44_stack R260, decision D6). -/
def stackDir : Word := 1#32

/-- `INT_HOOK` (60_exceptions R300), open: what the external collaborator does with a number, seeing the core. Its
first argument is the list of all earlier calls' numbers, so that a collaborator with a memory of its own is covered
too (log 7). Free value. -/
opaque intHook (earlier : List Byte) (number : Byte) (view : HookView) : HookResult

/-- `FNAN` (41_alu_float R152), open: the pattern of a NaN result, before it is held to the NaN patterns by
`nanPattern` (log 9). Free value. -/
opaque fnan (op : FloatOp) (x y : Word) : Word

/-- The registers 0 to 5 after the `k`-th reset event of a core that held `before` in them, unspecified by 10_state R41
(log 10). Free value, one pattern for each register and reset event. DESIGN CHOICE, unsafe: R41 does not say what the
patterns may depend on; here on the count of resets and on what the six registers held, so that a reset that keeps them
is covered, and on nothing else. -/
opaque unspecifiedRegs (k : Nat) (before : Regs) : Regs

end Sys2Proof.Config
end

