-- ==== Sys2Proof/Machine/State.lean ====
section
/-! DEFINITION. The state of the Lox01 core as plain data (10_state), the reasons a step could stop short of a next
state, and the machine right after reset. -/

namespace Sys2Proof.Machine

/-- Reasons a step stops with a fault. There is none: each fault of the spec (UnknownOpcode, DivideByZero,
UnmappedAddress) is an event with a next state, the `FAULT` latch written and the core halted (60_exceptions R293), and
is taken by `State.raise` (log 11). Safe: nothing the hardware does is cut short. -/
inductive Fault : Type
deriving DecidableEq, Repr

/-- Reasons a step is refused. -/
inductive Refusal where
  /-- The instruction has no meaning yet; raised by `exec`'s arm for it. No arm is left that raises it. Safe. -/
  | notModelled (mnemonic : String)
deriving DecidableEq, Repr

/-- Everything a step can read or write. -/
structure State where
  /-- R1 to R4, RG, SP (10_state R20). -/
  regs : Regs
  /-- PC, register 6: the address of the next byte to fetch (10_state R22, R27). -/
  pc : Word
  /-- Z, C, O, N, I (10_state R29). -/
  flags : Flags
  /-- `MODE` (10_state R33). -/
  mode : Mode
  /-- The `FAULT` latch (10_state R34). -/
  fault : Cause
  /-- `FAULT_INFO` (10_state R34). -/
  faultInfo : Word
  /-- The bytes behind the memory port (10_state R37). -/
  mem : Memory
  /-- The ranges the memory port answers, the platform's part of `MEM` (20_memory R61, R62); no step writes it
  (log 5). -/
  mapped : List Region
  /-- The interrupt request presented to the core (60_exceptions R297): the environment writes it between steps, a step
  reads it once and withdraws it when it accepts (log 6). -/
  irq : Option Byte
  /-- The model's own record of the interrupt dispatch port: the numbers of the hook calls, newest first (log 8). -/
  hookCalls : List Byte
  /-- The model's own count of reset events, which picks the free values of the unspecified registers (log 10). -/
  resets : Nat
deriving DecidableEq, Repr

/-- The machine right after reset (10_state R40, 70_reset R320). DESIGN CHOICE, unsafe, where the spec gives no value:
`resetPc` (log 2), registers 0 to 5 (log 1), memory and its mapping (log 4, log 5), no request presented (log 6), the
model's own fields (log 8, log 10). -/
def State.reset : State where
  regs := ⟨0#32, 0#32, 0#32, 0#32, 0#32, 0#32⟩
  pc := Config.resetPc
  flags := Flags.zero
  mode := .running
  fault := .none
  faultInfo := 0#32
  mem := []
  mapped := [⟨0, 2 ^ 32⟩]
  irq := none
  hookCalls := []
  resets := 0

/-! ### The record updates every operation is made of -/

def State.withRegs (s : State) (regs : Regs) : State := { s with regs := regs }
def State.withPc (s : State) (pc : Word) : State := { s with pc := pc }
def State.withFlags (s : State) (flags : Flags) : State := { s with flags := flags }
def State.withMode (s : State) (mode : Mode) : State := { s with mode := mode }
def State.withFault (s : State) (fault : Cause) (info : Word) : State := { s with fault := fault, faultInfo := info }
def State.withMem (s : State) (mem : Memory) : State := { s with mem := mem }
def State.withMapped (s : State) (mapped : List Region) : State := { s with mapped := mapped }
def State.withIrq (s : State) (irq : Option Byte) : State := { s with irq := irq }
def State.withHookCalls (s : State) (calls : List Byte) : State := { s with hookCalls := calls }
def State.withResets (s : State) (k : Nat) : State := { s with resets := k }

end Sys2Proof.Machine
end

