-- ==== Sys2Proof/Machine/Memory.lean ====
section
/-! DEFINITION. The bytes behind the memory port, as a list in one canonical form. -/

namespace Sys2Proof.Machine

/-- What an address that is not listed reads as. The spec leaves the contents of memory to the platform (93 U13);
DESIGN CHOICE, unsafe for a claim about a run from `State.reset` only, since every content can be listed (log 4). -/
def Memory.unlisted : Byte := 0#8

/-- The byte at an address. -/
def Memory.read : Memory → Nat → Byte
  | [], _ => Memory.unlisted
  | c :: m, a => if c.1 = a then c.2 else Memory.read m a

/-- Writes one byte, keeping the canonical form: the entry goes in at its place, and writing what an unlisted address
reads as takes the entry out. -/
def Memory.write : Memory → Nat → Byte → Memory
  | [], a, b => if b = Memory.unlisted then [] else [(a, b)]
  | c :: m, a, b =>
    if c.1 < a then c :: Memory.write m a b
    else if c.1 = a then (if b = Memory.unlisted then m else (a, b) :: m)
    else (if b = Memory.unlisted then c :: m else (a, b) :: c :: m)

/-- Writes bytes at rising addresses modulo `2^32` (20_memory R53, R57). -/
def Memory.writeBytes : Memory → Word → List Byte → Memory
  | m, _, [] => m
  | m, a, b :: bs => Memory.writeBytes (m.write a.toNat b) (a + 1#32) bs

/-- The canonical form from address `lo` up: addresses strictly rising, below `2^32`, no byte an unlisted address reads
as. -/
def Memory.wfFrom : Nat → Memory → Bool
  | _, [] => true
  | lo, c :: m =>
    decide (lo ≤ c.1) && decide (c.1 < 2 ^ 32) && decide (c.2 ≠ Memory.unlisted) && Memory.wfFrom (c.1 + 1) m

/-- The canonical form of memory: two memories in it that read alike at every address are equal. -/
def Memory.wf (m : Memory) : Bool := Memory.wfFrom 0 m

end Sys2Proof.Machine
end

