-- ==== Sys2Proof/Machine/Ops.lean ====
section
/-! DEFINITION. The named operations over registers, memory, the stack, faults and the interrupt hook. A meaning is made
of these. `Except State α` is a value, or the state a `raise` left. -/

namespace Sys2Proof.Machine

/-- What a meaning answers. -/
abbrev Outcome := Host.Outcome State Fault Refusal

/-! ### Registers (00_scope R11) -/

/-- `x[i]`: register 6 reads as `pc`, which is the address of the next instruction once the bytes are fetched
(10_state R22); register 7 reads as 0 (R25). -/
def State.reg (s : State) : Reg → Word
  | .r1 => s.regs.r1
  | .r2 => s.regs.r2
  | .r3 => s.regs.r3
  | .r4 => s.regs.r4
  | .rg => s.regs.rg
  | .sp => s.regs.sp
  | .pc => s.pc
  | .zero => 0#32

/-- `x[i] <- v`: a write of register 6 is a jump (10_state R22), a write of register 7 is discarded (R25). -/
def State.writeReg (s : State) (q : Reg) (v : Word) : State :=
  match q with
  | .r1 => s.withRegs { s.regs with r1 := v }
  | .r2 => s.withRegs { s.regs with r2 := v }
  | .r3 => s.withRegs { s.regs with r3 := v }
  | .r4 => s.withRegs { s.regs with r4 := v }
  | .rg => s.withRegs { s.regs with rg := v }
  | .sp => s.withRegs { s.regs with sp := v }
  | .pc => s.withPc v
  | .zero => s

/-- `F <- 0`: all five flags, the interrupt-enable flag among them (44_stack R261). -/
def State.clearFlags (s : State) : State := s.withFlags Flags.zero

/-! ### Taking a fault (60_exceptions R293)

There is no return from a fault and no return from interrupt: only a reset leaves `halted` (10_state R33), and how a
handler the hook jumped to returns is the hook's business (60_exceptions R303). -/

/-- `raise <cause>(info)`: the cause and its companion are latched and the core halts; what the instruction wrote
before stays. -/
def State.raise (s : State) (cause : Cause) (info : Word) : State := (s.withFault cause info).withMode .halted

/-- The state an instruction ends in, raised or not, as the outcome of its meaning. -/
def settle : Except State State → Outcome
  | .ok t => .next t
  | .error t => .next t

/-! ### The memory port (00_scope R8, 20_memory R50 to R57) -/

/-- The platform maps the address. -/
def State.isMapped (s : State) (a : Word) : Bool := s.mapped.any fun g => g.covers a.toNat

/-- Every byte address of an access of `n` bytes at `a`, taken modulo `2^32`, is mapped (20_memory R52, R57). -/
def State.portOk (s : State) (a : Word) (n : Nat) : Bool :=
  (List.range n).all fun k => s.isMapped (a + BitVec.ofNat 32 k)

/-- The byte behind the port at an address. -/
def State.byteAt (s : State) (a : Word) : Byte := s.mem.read a.toNat

/-- `getMem8` (20_memory R52); nothing is the port's error. -/
def State.getMem8 (s : State) (a : Word) : Option Byte :=
  if s.portOk a 1 then some (s.byteAt a) else none

/-- `getMem16`, little-endian at any alignment (20_memory R54, R56). -/
def State.getMem16 (s : State) (a : Word) : Option (BitVec 16) :=
  if s.portOk a 2 then some (le16 (s.byteAt a) (s.byteAt (a + 1#32))) else none

/-- `getMem32`, little-endian at any alignment (20_memory R54, R56). -/
def State.getMem32 (s : State) (a : Word) : Option Word :=
  if s.portOk a 4 then
    some (le32 (s.byteAt a) (s.byteAt (a + 1#32)) (s.byteAt (a + 2#32)) (s.byteAt (a + 3#32)))
  else none

/-- A write of bytes at the port: all of them, or none where an address is unmapped (20_memory R53). -/
def State.setBytes (s : State) (a : Word) (bs : List Byte) : Option State :=
  if s.portOk a bs.length then some (s.withMem (s.mem.writeBytes a bs)) else none

/-- `setMem8` (20_memory R53). -/
def State.setMem8 (s : State) (a : Word) (v : Byte) : Option State := s.setBytes a [v]

/-- `setMem16`, little-endian (20_memory R53, R54). -/
def State.setMem16 (s : State) (a : Word) (v : BitVec 16) : Option State := s.setBytes a (bytes16 v)

/-- `setMem32`, little-endian (20_memory R53, R54). -/
def State.setMem32 (s : State) (a : Word) (v : Word) : Option State := s.setBytes a (bytes32 v)

/-- What the port answered, or `raise UnmappedAddress(addr)` with the first address of the access (60_exceptions R291,
R292). -/
def State.orUnmapped {α : Type} (s : State) (a : Word) : Option α → Except State α
  | some v => .ok v
  | none => .error (s.raise .unmappedAddress a)

/-- `MemRead(addr, 1)` (20_memory R52). -/
def State.memRead8 (s : State) (a : Word) : Except State Byte := s.orUnmapped a (s.getMem8 a)

/-- `MemRead(addr, 2)` (20_memory R52). -/
def State.memRead16 (s : State) (a : Word) : Except State (BitVec 16) := s.orUnmapped a (s.getMem16 a)

/-- `MemRead(addr, 4)` (20_memory R52). -/
def State.memRead32 (s : State) (a : Word) : Except State Word := s.orUnmapped a (s.getMem32 a)

/-- `MemWrite(addr, 1, v)` (20_memory R53). -/
def State.memWrite8 (s : State) (a : Word) (v : Byte) : Except State State := s.orUnmapped a (s.setMem8 a v)

/-- `MemWrite(addr, 2, v)` (20_memory R53). -/
def State.memWrite16 (s : State) (a : Word) (v : BitVec 16) : Except State State := s.orUnmapped a (s.setMem16 a v)

/-- `MemWrite(addr, 4, v)` (20_memory R53). -/
def State.memWrite32 (s : State) (a : Word) (v : Word) : Except State State := s.orUnmapped a (s.setMem32 a v)

/-! ### The stack (44_stack R260): advance SP by the width before writing, read then retreat SP -/

/-- SP moved by a push of `w` bytes. -/
def State.advanceSp (s : State) (w : Word) : State := s.writeReg .sp (s.reg .sp + Config.stackDir * w)

/-- SP moved by a pop of `w` bytes. -/
def State.retreatSp (s : State) (w : Word) : State := s.writeReg .sp (s.reg .sp - Config.stackDir * w)

/-- `push(4, v)`: where the write faults, SP keeps its advanced value (60_exceptions R294). -/
def State.push32 (s : State) (v : Word) : Except State State :=
  (s.advanceSp 4#32).memWrite32 ((s.advanceSp 4#32).reg .sp) v

/-- `push(1, v)`. -/
def State.push8 (s : State) (v : Byte) : Except State State :=
  (s.advanceSp 1#32).memWrite8 ((s.advanceSp 1#32).reg .sp) v

/-- `pop(4)`: the word and the state with SP moved. -/
def State.pop32 (s : State) : Except State (Word × State) :=
  (s.memRead32 (s.reg .sp)).map fun v => (v, s.retreatSp 4#32)

/-- `pop(1)`: the byte and the state with SP moved. -/
def State.pop8 (s : State) : Except State (Byte × State) :=
  (s.memRead8 (s.reg .sp)).map fun b => (b, s.retreatSp 1#32)

/-! ### The interrupt hook (60_exceptions R297 to R300) -/

/-- What the hook reads. DESIGN CHOICE (log 7): 60_exceptions R300 leaves to the hook what it gets for an unmapped
address; here it is handed the mapping and the whole list of bytes, those listed at unmapped addresses among them. -/
def State.hookView (s : State) : HookView :=
  { regs := s.regs, pc := s.pc, flags := s.flags, mode := s.mode, mem := s.mem, mapped := s.mapped }

/-- The hook's writes reach memory through the core's own port: a byte at an unmapped address is not written, and a
memory error of the hook is no fault of the core (60_exceptions R300, log 7). -/
def State.hookWrites (s : State) : Memory → List (Word × Byte) → Memory
  | m, [] => m
  | m, w :: ws => s.hookWrites (if s.isMapped w.1 then m.write w.1.toNat w.2 else m) ws

/-- `(core state, memory) <- INT_HOOK(n, core state, memory)`. `MODE`, `FAULT`, `FAULT_INFO` and register 7 are out of
the hook's reach (60_exceptions R300). -/
def State.callHook (s : State) (n : Byte) : State :=
  let out := Config.intHook s.hookCalls n s.hookView
  ((((s.withMem (s.hookWrites s.mem out.writes)).withRegs out.regs).withPc out.pc).withFlags out.flags).withHookCalls
    (n :: s.hookCalls)

/-- The end-of-step interrupt check (60_exceptions R298): with `F.I` set after the instruction's own writes and a
request presented, the request is acknowledged, that is withdrawn, and the hook called with its number. -/
def State.serviceIrq (s : State) : State :=
  match s.irq with
  | none => s
  | some n => if s.flags.i then (s.withIrq none).callHook n else s

/-- The instruction completed without a fault, told from the state it left: a completed instruction leaves the core
running, or is `HALT`, which raises nothing (45_system R276, 60_exceptions R293). -/
def completed (i : Instr) (t : State) : Bool := decide (t.mode = .running) || decide (i = .halt)

/-- What a step does after the instruction: the interrupt check, not after a fault (60_exceptions R293, R298). -/
def endOfStep (i : Instr) (t : State) : State := if completed i t then t.serviceIrq else t

end Sys2Proof.Machine
end

