-- ==== Sys2Proof/Machine/Operands.lean ====
section
/-! DEFINITION. The operand forms: the effective address, the jump target, the shift count, the extensions. Registers
are read with `State.reg` (Ops). -/

namespace Sys2Proof.Machine

/-- The scale of the index register, fixed by the opcode (30_encoding R88). -/
inductive Scale where
  | x1
  | x2
  | x4
deriving DecidableEq, Repr

/-- The multiplier. -/
def Scale.factor : Scale → Nat
  | .x1 => 1
  | .x2 => 2
  | .x4 => 4

/-- `EA(base, index, m, d) = trunc32(u(x[base]) + u(x[index]) * m + s(d))` (30_encoding R88); `d = 0` for the shape
without offset. -/
def State.ea (s : State) (base : Reg) (index : IdxReg) (m : Scale) (d : Word) : Word :=
  trunc32 (((s.reg base).toNat : Int) + ((s.reg index.toReg).toNat : Int) * (m.factor : Int) + d.toInt)

/-- `sext_16(v)` (00_scope R11). -/
def sext16 (v : BitVec 16) : Word := v.signExtend 32

/-- `zext_8(v)` (00_scope R11). -/
def zext8 (v : Byte) : Word := v.setWidth 32

/-- `zext_16(v)` (00_scope R11). -/
def zext16 (v : BitVec 16) : Word := v.setWidth 32

/-- The target of a displacement form, relative to the address of the next instruction (43_control R215). -/
def State.target (s : State) (disp : Word) : Word := trunc32 ((s.pc.toNat : Int) + disp.toInt)

/-- The shift or rotate count: the low five bits of the source register (40_alu_integer section 5). -/
def shiftCount (y : Word) : Nat := (y.extractLsb' 0 5).toNat

end Sys2Proof.Machine
end

