-- ==== Sys2Proof/Machine/Flags.lean ====
section
/-! DEFINITION. The flag computations: the packed byte, the policy of 40_alu_integer R121, one function per ALU
operation giving its 32-bit result and the flags after it, and the jump predicates. -/

namespace Sys2Proof.Machine

/-! ### The flags register (10_state R29, R30) -/

/-- One flag by its index. -/
inductive FlagName where
  | z
  | c
  | o
  | n
  | i
deriving DecidableEq, Repr

/-- The flag a `Flag` operand byte names; nothing above 4 (30_encoding R85, R97). -/
def FlagName.ofIndex (k : Byte) : Option FlagName :=
  match k.toNat with
  | 0 => some .z
  | 1 => some .c
  | 2 => some .o
  | 3 => some .n
  | 4 => some .i
  | _ => none

/-- Writes one flag; the other four are unchanged (45_system R278). -/
def Flags.put (f : Flags) (k : FlagName) (b : Bool) : Flags :=
  match k with
  | .z => { f with z := b }
  | .c => { f with c := b }
  | .o => { f with o := b }
  | .n => { f with n := b }
  | .i => { f with i := b }

/-- The packed flags byte `Z | C<<1 | O<<2 | N<<3 | I<<4`, bits 7:5 zero (10_state R30). -/
def Flags.pack (f : Flags) : Byte :=
  BitVec.ofNat 8 (f.z.toNat ||| f.c.toNat <<< 1 ||| f.o.toNat <<< 2 ||| f.n.toNat <<< 3 ||| f.i.toNat <<< 4)

/-- The flags from a popped byte; bits 7:5 are ignored (10_state R30, 44_stack R264). -/
def Flags.unpack (b : Byte) : Flags :=
  ⟨b.getLsbD 0, b.getLsbD 1, b.getLsbD 2, b.getLsbD 3, b.getLsbD 4⟩

/-! ### The update policy (40_alu_integer R121) -/

/-- `ZN(r)`: Zero and Negative of the 32-bit result. -/
def Flags.zn (f : Flags) (r : Word) : Flags := { f with z := decide (r = 0#32), n := r.getLsbD 31 }

/-- `OVF(x, y, r)`: bit 31 of `~(x ^ y) & (x ^ r)`, for the subtracting members too, with `y` the source register's
value. -/
def ovf (x y r : Word) : Bool := (~~~(x ^^^ y) &&& (x ^^^ r)).getLsbD 31

/-- The result of an ALU operation and the flags after it. -/
structure AluOut where
  r : Word
  flags : Flags
deriving DecidableEq, Repr

/-- The add and subtract family from its exact result `t` and its carry or borrow (40_alu_integer R122 to R126). -/
def arithOut (x y : Word) (f : Flags) (t : Int) (carry : Bool) : AluOut :=
  { r := trunc32 t, flags := Flags.zn { f with c := carry, o := ovf x y (trunc32 t) } (trunc32 t) }

/-- `ADD` (40_alu_integer R122). -/
def aluAdd (x y : Word) (f : Flags) : AluOut :=
  let t : Int := (x.toNat : Int) + y.toNat
  arithOut x y f t (decide (t ≥ 2 ^ 32))

/-- `ADC` (40_alu_integer R123). -/
def aluAdc (x y : Word) (f : Flags) : AluOut :=
  let t : Int := (x.toNat : Int) + y.toNat + f.c.toNat
  arithOut x y f t (decide (t ≥ 2 ^ 32))

/-- `SUB`, and `CMP` without the register write (40_alu_integer R124, R126). -/
def aluSub (x y : Word) (f : Flags) : AluOut :=
  let t : Int := (x.toNat : Int) - y.toNat
  arithOut x y f t (decide (t < 0))

/-- `SBB` (40_alu_integer R125). -/
def aluSbb (x y : Word) (f : Flags) : AluOut :=
  let t : Int := (x.toNat : Int) - y.toNat - f.c.toNat
  arithOut x y f t (decide (t < 0))

/-- The multiplies write Z and N only (40_alu_integer R127, R128). -/
def mulOut (f : Flags) (r : Word) : AluOut := { r := r, flags := f.zn r }

/-- `MUL` (40_alu_integer R127). -/
def aluMul (x y : Word) (f : Flags) : AluOut := mulOut f (trunc32 (x.toInt * y.toInt))

/-- `UMUL` (40_alu_integer R128). -/
def aluUmul (x y : Word) (f : Flags) : AluOut := mulOut f (trunc32 ((x.toNat : Int) * y.toNat))

/-- The division family forces O to 0 and leaves C (40_alu_integer R129 to R131). -/
def divOut (f : Flags) (r : Word) : AluOut := { r := r, flags := Flags.zn { f with o := false } r }

/-- `DIV`, the quotient rounded toward zero, for a divisor that is not 0 (40_alu_integer R129). -/
def aluDiv (x y : Word) (f : Flags) : AluOut := divOut f (trunc32 (Int.tdiv x.toInt y.toInt))

/-- `UDIV`, for a divisor that is not 0 (40_alu_integer R130). -/
def aluUdiv (x y : Word) (f : Flags) : AluOut := divOut f (trunc32 ((x.toNat / y.toNat : Nat) : Int))

/-- `REM`, `s(x) - s(y) * q` with the quotient of `DIV`, for a divisor that is not 0 (40_alu_integer R131). -/
def aluRem (x y : Word) (f : Flags) : AluOut :=
  divOut f (trunc32 (x.toInt - y.toInt * Int.tdiv x.toInt y.toInt))

/-- The logic, shift and rotate operations force O to 0 and write C: forced to 0, or the last bit shifted out
(40_alu_integer R121). -/
def logicOut (f : Flags) (r : Word) (carry : Bool) : AluOut :=
  { r := r, flags := Flags.zn { f with c := carry, o := false } r }

/-- `AND` (40_alu_integer R132). -/
def aluAnd (x y : Word) (f : Flags) : AluOut := logicOut f (x &&& y) false

/-- `OR` (40_alu_integer R133). -/
def aluOr (x y : Word) (f : Flags) : AluOut := logicOut f (x ||| y) false

/-- `XOR` (40_alu_integer R134). -/
def aluXor (x y : Word) (f : Flags) : AluOut := logicOut f (x ^^^ y) false

/-- `SHR`, carry `x[n-1]`, 0 for a count of 0 (40_alu_integer R135). -/
def aluShr (x y : Word) (f : Flags) : AluOut :=
  let n := shiftCount y
  logicOut f (trunc32 ((x.toNat >>> n : Nat) : Int)) (if n = 0 then false else x.getLsbD (n - 1))

/-- `SAR`, `floor(s(x) / 2^n)`, carry `x[n-1]`, 0 for a count of 0 (40_alu_integer R136). -/
def aluSar (x y : Word) (f : Flags) : AluOut :=
  let n := shiftCount y
  logicOut f (trunc32 (Int.fdiv x.toInt (2 ^ n))) (if n = 0 then false else x.getLsbD (n - 1))

/-- `SHL`, carry `x[32-n]`, 0 for a count of 0 (40_alu_integer R137). -/
def aluShl (x y : Word) (f : Flags) : AluOut :=
  let n := shiftCount y
  logicOut f (trunc32 ((x.toNat * 2 ^ n : Nat) : Int)) (if n = 0 then false else x.getLsbD (32 - n))

/-- `ROL`, carry forced to 0 (40_alu_integer R138). -/
def aluRol (x y : Word) (f : Flags) : AluOut :=
  let n := shiftCount y
  let r := if n = 0 then x
    else trunc32 ((x.toNat * 2 ^ n : Nat) : Int) ||| trunc32 ((x.toNat >>> (32 - n) : Nat) : Int)
  logicOut f r false

/-- `ROR`, carry forced to 0 (40_alu_integer R139). -/
def aluRor (x y : Word) (f : Flags) : AluOut :=
  let n := shiftCount y
  let r := if n = 0 then x
    else trunc32 ((x.toNat >>> n : Nat) : Int) ||| trunc32 ((x.toNat * 2 ^ (32 - n) : Nat) : Int)
  logicOut f r false

/-- The flags after a float operation: N as given, Z, C and O forced to 0, I unchanged (41_alu_float R151). -/
def Flags.float (f : Flags) (negative : Bool) : Flags := { z := false, c := false, o := false, n := negative, i := f.i }

/-! ### The jump predicates (43_control R217) -/

/-- `JZ`: `F.Z = 1`. -/
def Flags.isZ (f : Flags) : Bool := f.z
/-- `JNZ`: `F.Z = 0`. -/
def Flags.isNZ (f : Flags) : Bool := !f.z
/-- `JG`: `F.Z = 0 and F.N = 0`. -/
def Flags.isG (f : Flags) : Bool := !f.z && !f.n
/-- `JGE`: `F.N = 0`. -/
def Flags.isGE (f : Flags) : Bool := !f.n
/-- `JL`: `F.N = 1`. -/
def Flags.isL (f : Flags) : Bool := f.n
/-- `JLE`: `F.Z = 1 or F.N = 1`. -/
def Flags.isLE (f : Flags) : Bool := f.z || f.n
/-- `JA`: `F.C = 0 and F.Z = 0`. -/
def Flags.isA (f : Flags) : Bool := !f.c && !f.z
/-- `JAE`: `F.C = 0`. -/
def Flags.isAE (f : Flags) : Bool := !f.c
/-- `JB`: `F.C = 1`. -/
def Flags.isB (f : Flags) : Bool := f.c
/-- `JBE`: `F.C = 1 or F.Z = 1`. -/
def Flags.isBE (f : Flags) : Bool := f.c || f.z
/-- `JO`: `F.O = 1`. -/
def Flags.isO (f : Flags) : Bool := f.o
/-- `JNO`: `F.O = 0`. -/
def Flags.isNO (f : Flags) : Bool := !f.o

end Sys2Proof.Machine
end

