-- ==== Sys2Proof/Machine/Alu.lean ====
section
/-! DEFINITION. The eighteen two-register integer instructions (40_alu_integer R120 to R142). -/

namespace Sys2Proof.Machine

/-- `x[dest] <- r` and the flags of the operation on `x[dest]`, `x[src]`, both read first (40_alu_integer R120). -/
def State.aluWrite (s : State) (op : Word → Word → Flags → AluOut) (dest src : Reg) : State :=
  let out := op (s.reg dest) (s.reg src) s.flags
  (s.withFlags out.flags).writeReg dest out.r

/-- The flags of the operation and no register write (40_alu_integer R126). -/
def State.aluFlags (s : State) (op : Word → Word → Flags → AluOut) (dest src : Reg) : State :=
  s.withFlags (op (s.reg dest) (s.reg src) s.flags).flags

/-- `if y = 0 then raise DivideByZero()`, tested before any write (60_exceptions R296). -/
def State.aluDivide (s : State) (op : Word → Word → Flags → AluOut) (dest src : Reg) : Except State State :=
  if s.reg src = 0#32 then .error (s.raise .divideByZero 0#32) else .ok (s.aluWrite op dest src)

/-- `ADD rD, rS`: x + y (40_alu_integer R122). -/
def execAdd (dest src : Reg) (s : State) : Outcome := .next (s.aluWrite aluAdd dest src)

/-- `ADC rD, rS`: x + y + C (40_alu_integer R123). -/
def execAdc (dest src : Reg) (s : State) : Outcome := .next (s.aluWrite aluAdc dest src)

/-- `SUB rD, rS`: x - y (40_alu_integer R124). -/
def execSub (dest src : Reg) (s : State) : Outcome := .next (s.aluWrite aluSub dest src)

/-- `SBB rD, rS`: x - y - C (40_alu_integer R125). -/
def execSbb (dest src : Reg) (s : State) : Outcome := .next (s.aluWrite aluSbb dest src)

/-- `CMP rD, rS`: the flags of `SUB`, nothing stored (40_alu_integer R126). -/
def execCmp (dest src : Reg) (s : State) : Outcome := .next (s.aluFlags aluSub dest src)

/-- `MUL rD, rS`: signed product (40_alu_integer R127). -/
def execMul (dest src : Reg) (s : State) : Outcome := .next (s.aluWrite aluMul dest src)

/-- `UMUL rD, rS`: unsigned product (40_alu_integer R128). -/
def execUmul (dest src : Reg) (s : State) : Outcome := .next (s.aluWrite aluUmul dest src)

/-- `DIV rD, rS`: signed quotient; `DivideByZero` when the divisor is 0 (40_alu_integer R129). -/
def execDiv (dest src : Reg) (s : State) : Outcome := settle (s.aluDivide aluDiv dest src)

/-- `UDIV rD, rS`: unsigned quotient; `DivideByZero` when the divisor is 0 (40_alu_integer R130). -/
def execUdiv (dest src : Reg) (s : State) : Outcome := settle (s.aluDivide aluUdiv dest src)

/-- `REM rD, rS`: signed remainder; `DivideByZero` when the divisor is 0 (40_alu_integer R131). -/
def execRem (dest src : Reg) (s : State) : Outcome := settle (s.aluDivide aluRem dest src)

/-- `AND rD, rS`: bitwise and (40_alu_integer R132). -/
def execAnd (dest src : Reg) (s : State) : Outcome := .next (s.aluWrite aluAnd dest src)

/-- `OR rD, rS`: bitwise or (40_alu_integer R133). -/
def execOr (dest src : Reg) (s : State) : Outcome := .next (s.aluWrite aluOr dest src)

/-- `XOR rD, rS`: bitwise exclusive or (40_alu_integer R134). -/
def execXor (dest src : Reg) (s : State) : Outcome := .next (s.aluWrite aluXor dest src)

/-- `SHR rD, rS`: logical shift right (40_alu_integer R135). -/
def execShr (dest src : Reg) (s : State) : Outcome := .next (s.aluWrite aluShr dest src)

/-- `SAR rD, rS`: arithmetic shift right (40_alu_integer R136). -/
def execSar (dest src : Reg) (s : State) : Outcome := .next (s.aluWrite aluSar dest src)

/-- `SHL rD, rS`: shift left (40_alu_integer R137). -/
def execShl (dest src : Reg) (s : State) : Outcome := .next (s.aluWrite aluShl dest src)

/-- `ROL rD, rS`: rotate left (40_alu_integer R138). -/
def execRol (dest src : Reg) (s : State) : Outcome := .next (s.aluWrite aluRol dest src)

/-- `ROR rD, rS`: rotate right (40_alu_integer R139). -/
def execRor (dest src : Reg) (s : State) : Outcome := .next (s.aluWrite aluRor dest src)

end Sys2Proof.Machine
end

