-- ==== Sys2Proof/Machine/Control.lean ====
section
/-! DEFINITION. Jumps, conditional jumps, call and return (43_control R215 to R251). `pc` is the address of the next
instruction when a meaning runs. -/

namespace Sys2Proof.Machine

/-- A conditional jump: not taken, `pc` stays the address of the next instruction (43_control R216). -/
def State.jumpIf (s : State) (taken : Bool) (disp : Word) : State := if taken then s.withPc (s.target disp) else s

/-- `CALL`: pushes the address of the next instruction, then jumps; where the push faults the jump is not made
(43_control R245, R246). -/
def State.call (s : State) (disp : Word) : Except State State :=
  (s.push32 s.pc).map fun t => t.withPc (s.target disp)

/-- `JMP.R rS` (43_control R218). -/
def execJmpR (reg : Reg) (s : State) : Outcome := .next (s.withPc (s.reg reg))

/-- `JMP.16` (43_control R219). -/
def execJmp16 (disp : BitVec 16) (s : State) : Outcome := .next (s.withPc (s.target (sext16 disp)))

/-- `JMP.32` (43_control R220). -/
def execJmp32 (disp : Word) (s : State) : Outcome := .next (s.withPc (s.target disp))

/-- `JZ.16` (43_control R221). -/
def execJz16 (disp : BitVec 16) (s : State) : Outcome := .next (s.jumpIf s.flags.isZ (sext16 disp))

/-- `JZ.32` (43_control R222). -/
def execJz32 (disp : Word) (s : State) : Outcome := .next (s.jumpIf s.flags.isZ disp)

/-- `JNZ.16` (43_control R223). -/
def execJnz16 (disp : BitVec 16) (s : State) : Outcome := .next (s.jumpIf s.flags.isNZ (sext16 disp))

/-- `JNZ.32` (43_control R224). -/
def execJnz32 (disp : Word) (s : State) : Outcome := .next (s.jumpIf s.flags.isNZ disp)

/-- `JG.16` (43_control R225). -/
def execJg16 (disp : BitVec 16) (s : State) : Outcome := .next (s.jumpIf s.flags.isG (sext16 disp))

/-- `JG.32` (43_control R226). -/
def execJg32 (disp : Word) (s : State) : Outcome := .next (s.jumpIf s.flags.isG disp)

/-- `JGE.16` (43_control R227). -/
def execJge16 (disp : BitVec 16) (s : State) : Outcome := .next (s.jumpIf s.flags.isGE (sext16 disp))

/-- `JGE.32` (43_control R228). -/
def execJge32 (disp : Word) (s : State) : Outcome := .next (s.jumpIf s.flags.isGE disp)

/-- `JL.16` (43_control R229). -/
def execJl16 (disp : BitVec 16) (s : State) : Outcome := .next (s.jumpIf s.flags.isL (sext16 disp))

/-- `JL.32` (43_control R230). -/
def execJl32 (disp : Word) (s : State) : Outcome := .next (s.jumpIf s.flags.isL disp)

/-- `JLE.16` (43_control R231). -/
def execJle16 (disp : BitVec 16) (s : State) : Outcome := .next (s.jumpIf s.flags.isLE (sext16 disp))

/-- `JLE.32` (43_control R232). -/
def execJle32 (disp : Word) (s : State) : Outcome := .next (s.jumpIf s.flags.isLE disp)

/-- `JA.16` (43_control R233). -/
def execJa16 (disp : BitVec 16) (s : State) : Outcome := .next (s.jumpIf s.flags.isA (sext16 disp))

/-- `JA.32` (43_control R234). -/
def execJa32 (disp : Word) (s : State) : Outcome := .next (s.jumpIf s.flags.isA disp)

/-- `JAE.16` (43_control R235). -/
def execJae16 (disp : BitVec 16) (s : State) : Outcome := .next (s.jumpIf s.flags.isAE (sext16 disp))

/-- `JAE.32` (43_control R236). -/
def execJae32 (disp : Word) (s : State) : Outcome := .next (s.jumpIf s.flags.isAE disp)

/-- `JB.16` (43_control R237). -/
def execJb16 (disp : BitVec 16) (s : State) : Outcome := .next (s.jumpIf s.flags.isB (sext16 disp))

/-- `JB.32` (43_control R238). -/
def execJb32 (disp : Word) (s : State) : Outcome := .next (s.jumpIf s.flags.isB disp)

/-- `JBE.16` (43_control R239). -/
def execJbe16 (disp : BitVec 16) (s : State) : Outcome := .next (s.jumpIf s.flags.isBE (sext16 disp))

/-- `JBE.32` (43_control R240). -/
def execJbe32 (disp : Word) (s : State) : Outcome := .next (s.jumpIf s.flags.isBE disp)

/-- `JO.16` (43_control R241). -/
def execJo16 (disp : BitVec 16) (s : State) : Outcome := .next (s.jumpIf s.flags.isO (sext16 disp))

/-- `JO.32` (43_control R242). -/
def execJo32 (disp : Word) (s : State) : Outcome := .next (s.jumpIf s.flags.isO disp)

/-- `JNO.16` (43_control R243). -/
def execJno16 (disp : BitVec 16) (s : State) : Outcome := .next (s.jumpIf s.flags.isNO (sext16 disp))

/-- `JNO.32` (43_control R244). -/
def execJno32 (disp : Word) (s : State) : Outcome := .next (s.jumpIf s.flags.isNO disp)

/-- `CALL.16` (43_control R245). -/
def execCall16 (disp : BitVec 16) (s : State) : Outcome := settle (s.call (sext16 disp))

/-- `CALL.32` (43_control R246). -/
def execCall32 (disp : Word) (s : State) : Outcome := settle (s.call disp)

/-- `RET`: pops a word and jumps there; no flag is written (43_control R250). -/
def execRet (s : State) : Outcome := settle (s.pop32.map fun p => p.2.withPc p.1)

end Sys2Proof.Machine
end

