-- ==== Sys2Proof/Machine/Binary32.lean ====
section
/-! DEFINITION. IEEE-754 binary32 (41_alu_float R150, R152), exactly, in natural numbers. Every finite binary32 value
is a whole number of units of `2^-149`, so a finite value is a sign and that number. -/

namespace Sys2Proof.Machine

/-- A binary32 value. `fin neg mag` is `mag * 2^-149`, negative where `neg`; `fin true 0` is `-0`. -/
inductive F32 where
  | nan
  | inf (neg : Bool)
  | fin (neg : Bool) (mag : Nat)
deriving DecidableEq, Repr

/-- The biased exponent, bits 30:23 (41_alu_float R150). -/
def expField (v : Word) : Nat := (v.extractLsb' 23 8).toNat

/-- The fraction, bits 22:0 (41_alu_float R150). -/
def fracField (v : Word) : Nat := (v.extractLsb' 0 23).toNat

/-- The pattern is a NaN: exponent 255 and a fraction that is not 0 (41_alu_float R150). -/
def isNanPattern (v : Word) : Bool := decide (expField v = 255) && decide (fracField v ≠ 0)

/-- `f32(v)` (41_alu_float R150): exponent 0 is zero or subnormal, 255 infinity or NaN. -/
def f32 (v : Word) : F32 :=
  let e := expField v
  let m := fracField v
  if e = 255 then (if m = 0 then .inf (v.getLsbD 31) else .nan)
  else if e = 0 then .fin (v.getLsbD 31) m
  else .fin (v.getLsbD 31) ((2 ^ 23 + m) * 2 ^ (e - 1))

/-- The pattern with a sign bit and bits 30:0. -/
def signed32 (neg : Bool) (low : Nat) : Word := BitVec.ofNat 32 ((if neg then 2 ^ 31 else 0) + low)

/-- `bits(f)` for an infinity or a finite value (41_alu_float R150): with `e` the exponent of the last place above
`2^-149`, bits 30:0 are `e * 2^23 + mag / 2^e`, in which the leading one of a normal value adds 1 to the exponent field.
A NaN has no pattern of its own: `resultBits`. -/
def finiteBits (neg : Bool) (mag : Nat) : Word :=
  let e := Nat.log2 mag - 23
  signed32 neg (e * 2 ^ 23 + mag / 2 ^ e)

/-- A pattern held to the NaN patterns: `FNAN` returns some pattern with exponent 255 and a non-zero fraction
(41_alu_float R152). Every NaN pattern is reached, by itself (log 9). -/
def nanPattern (v : Word) : Word := if isNanPattern v then v else 0x7FC00000#32

/-- The pattern a float instruction stores: `bits(f)`, and for a NaN the free value `FNAN(op, x, y)`. -/
def resultBits (op : FloatOp) (x y : Word) : F32 → Word
  | .nan => nanPattern (Config.fnan op x y)
  | .inf neg => signed32 neg (255 * 2 ^ 23)
  | .fin neg mag => finiteBits neg mag

/-- The quotient `n / d` rounded to a whole number, ties to even (41_alu_float R152). -/
def roundHalfEven (n d : Nat) : Nat :=
  let q := n / d
  let r := n % d
  if 2 * r < d then q else if d < 2 * r then q + 1 else if q % 2 = 0 then q else q + 1

/-- `round_binary32` of the magnitude `n / d` in units of `2^-149`: 24 significant bits, or whole units below the
normal range, ties to even, and an infinity from `2^128` up (41_alu_float R152). -/
def roundBinary32 (neg : Bool) (n d : Nat) : F32 :=
  let e := Nat.log2 (n / d) - 23
  let mag := roundHalfEven n (d * 2 ^ e) * 2 ^ e
  if mag < 2 ^ 128 * 2 ^ 149 then .fin neg mag else .inf neg

/-- The exact signed number of units. -/
def signedUnits (neg : Bool) (mag : Nat) : Int := if neg then -(mag : Int) else mag

/-- `round_binary32(a + b)`. An exact zero sum is `+0`, but for two zeros of sign `-` it is `-0`
(IEEE-754 round to nearest, log 15). -/
def f32Add : F32 → F32 → F32
  | .nan, _ => .nan
  | .inf _, .nan => .nan
  | .fin _ _, .nan => .nan
  | .inf p, .inf q => if p = q then .inf p else .nan
  | .inf p, .fin _ _ => .inf p
  | .fin _ _, .inf q => .inf q
  | .fin p m, .fin q n =>
    let t := signedUnits p m + signedUnits q n
    if t = 0 then .fin (p && q) 0 else roundBinary32 (decide (t < 0)) t.natAbs 1

/-- `-b`. -/
def f32Neg : F32 → F32
  | .nan => .nan
  | .inf q => .inf (!q)
  | .fin q n => .fin (!q) n

/-- `round_binary32(a - b)`. -/
def f32Sub (a b : F32) : F32 := f32Add a (f32Neg b)

/-- `round_binary32(a * b)`; `0 * inf` is a NaN, the sign is the exclusive or of the signs. -/
def f32Mul : F32 → F32 → F32
  | .nan, _ => .nan
  | .inf _, .nan => .nan
  | .fin _ _, .nan => .nan
  | .inf p, .inf q => .inf (p ^^ q)
  | .inf p, .fin q n => if n = 0 then .nan else .inf (p ^^ q)
  | .fin p m, .inf q => if m = 0 then .nan else .inf (p ^^ q)
  | .fin p m, .fin q n => roundBinary32 (p ^^ q) (m * n) (2 ^ 149)

/-- `round_binary32(a / b)`; a finite value that is not 0 over 0 is an infinity, `0 / 0` and `inf / inf` are NaN. -/
def f32Div : F32 → F32 → F32
  | .nan, _ => .nan
  | .inf _, .nan => .nan
  | .fin _ _, .nan => .nan
  | .inf _, .inf _ => .nan
  | .inf p, .fin q _ => .inf (p ^^ q)
  | .fin p _, .inf q => .fin (p ^^ q) 0
  | .fin p m, .fin q n =>
    if n = 0 then (if m = 0 then .nan else .inf (p ^^ q)) else roundBinary32 (p ^^ q) (m * 2 ^ 149) n

/-- `f < 0` as numbers: false for `+0`, `-0` and every NaN (41_alu_float R152). -/
def F32.isNegative : F32 → Bool
  | .nan => false
  | .inf neg => neg
  | .fin neg mag => neg && decide (mag ≠ 0)

end Sys2Proof.Machine
end

