-- ==== Sys2Proof/Machine/Float.lean ====
section
/-! DEFINITION. The five float instructions (41_alu_float R150 to R158). -/

namespace Sys2Proof.Machine

/-- The flags of a float result and no register write (41_alu_float R151, R157). -/
def State.floatFlags (s : State) (f : F32 → F32 → F32) (dest src : Reg) : State :=
  s.withFlags (s.flags.float (f (f32 (s.reg dest)) (f32 (s.reg src))).isNegative)

/-- `x[dest] <- bits(f)` with the flags of the result `f` (41_alu_float R151). -/
def State.floatWrite (s : State) (op : FloatOp) (f : F32 → F32 → F32) (dest src : Reg) : State :=
  (s.floatFlags f dest src).writeReg dest
    (resultBits op (s.reg dest) (s.reg src) (f (f32 (s.reg dest)) (f32 (s.reg src))))

/-- `FADD rD, rS` (41_alu_float R153). -/
def execFadd (dest src : Reg) (s : State) : Outcome := .next (s.floatWrite .fadd f32Add dest src)

/-- `FSUB rD, rS` (41_alu_float R154). -/
def execFsub (dest src : Reg) (s : State) : Outcome := .next (s.floatWrite .fsub f32Sub dest src)

/-- `FMUL rD, rS` (41_alu_float R155). -/
def execFmul (dest src : Reg) (s : State) : Outcome := .next (s.floatWrite .fmul f32Mul dest src)

/-- `FDIV rD, rS` (41_alu_float R156). -/
def execFdiv (dest src : Reg) (s : State) : Outcome := .next (s.floatWrite .fdiv f32Div dest src)

/-- `FCMP rD, rS`: N of the difference, nothing stored (41_alu_float R157). -/
def execFcmp (dest src : Reg) (s : State) : Outcome := .next (s.floatFlags f32Sub dest src)

end Sys2Proof.Machine
end

