-- ==== Sys2Proof/Machine/Moves.lean ====
section
/-! DEFINITION. The register and immediate moves and the thirty-six memory moves (42_moves R165 to R208). -/

namespace Sys2Proof.Machine

/-- The load template, 8 bits, zero-extended into the whole register (42_moves R204). -/
def State.load8 (s : State) (data : Reg) (a : Word) : Except State State :=
  (s.memRead8 a).map fun v => s.writeReg data (zext8 v)

/-- The load template, 16 bits, zero-extended into the whole register (42_moves R204). -/
def State.load16 (s : State) (data : Reg) (a : Word) : Except State State :=
  (s.memRead16 a).map fun v => s.writeReg data (zext16 v)

/-- The load template, 32 bits (42_moves R204). -/
def State.load32 (s : State) (data : Reg) (a : Word) : Except State State :=
  (s.memRead32 a).map fun v => s.writeReg data v

/-- The store template, the low 8 bits (42_moves R205). -/
def State.store8 (s : State) (data : Reg) (a : Word) : Except State State :=
  s.memWrite8 a ((s.reg data).extractLsb' 0 8)

/-- The store template, the low 16 bits (42_moves R205). -/
def State.store16 (s : State) (data : Reg) (a : Word) : Except State State :=
  s.memWrite16 a ((s.reg data).extractLsb' 0 16)

/-- The store template, 32 bits (42_moves R205). -/
def State.store32 (s : State) (data : Reg) (a : Word) : Except State State :=
  s.memWrite32 a (s.reg data)

/-- `MOV.RR rD, rS` (42_moves R165). -/
def execMovRR (dest src : Reg) (s : State) : Outcome := .next (s.writeReg dest (s.reg src))

/-- `MOV.RI rD, imm32` (42_moves R166). -/
def execMovRI (dest : Reg) (imm : Word) (s : State) : Outcome := .next (s.writeReg dest imm)

/-- `LD8.X1` (42_moves R167). -/
def execLd8x1 (data base : Reg) (index : IdxReg) (s : State) : Outcome :=
  settle (s.load8 data (s.ea base index .x1 0#32))

/-- `LD8.X2` (42_moves R168). -/
def execLd8x2 (data base : Reg) (index : IdxReg) (s : State) : Outcome :=
  settle (s.load8 data (s.ea base index .x2 0#32))

/-- `LD8.X4` (42_moves R169). -/
def execLd8x4 (data base : Reg) (index : IdxReg) (s : State) : Outcome :=
  settle (s.load8 data (s.ea base index .x4 0#32))

/-- `LD8.X1.D` (42_moves R170). -/
def execLd8x1d (data base : Reg) (index : IdxReg) (disp : Word) (s : State) : Outcome :=
  settle (s.load8 data (s.ea base index .x1 disp))

/-- `LD8.X2.D` (42_moves R171). -/
def execLd8x2d (data base : Reg) (index : IdxReg) (disp : Word) (s : State) : Outcome :=
  settle (s.load8 data (s.ea base index .x2 disp))

/-- `LD8.X4.D` (42_moves R172). -/
def execLd8x4d (data base : Reg) (index : IdxReg) (disp : Word) (s : State) : Outcome :=
  settle (s.load8 data (s.ea base index .x4 disp))

/-- `ST8.X1` (42_moves R173). -/
def execSt8x1 (data base : Reg) (index : IdxReg) (s : State) : Outcome :=
  settle (s.store8 data (s.ea base index .x1 0#32))

/-- `ST8.X2` (42_moves R174). -/
def execSt8x2 (data base : Reg) (index : IdxReg) (s : State) : Outcome :=
  settle (s.store8 data (s.ea base index .x2 0#32))

/-- `ST8.X4` (42_moves R175). -/
def execSt8x4 (data base : Reg) (index : IdxReg) (s : State) : Outcome :=
  settle (s.store8 data (s.ea base index .x4 0#32))

/-- `ST8.X1.D` (42_moves R176). -/
def execSt8x1d (data base : Reg) (index : IdxReg) (disp : Word) (s : State) : Outcome :=
  settle (s.store8 data (s.ea base index .x1 disp))

/-- `ST8.X2.D` (42_moves R177). -/
def execSt8x2d (data base : Reg) (index : IdxReg) (disp : Word) (s : State) : Outcome :=
  settle (s.store8 data (s.ea base index .x2 disp))

/-- `ST8.X4.D` (42_moves R178). -/
def execSt8x4d (data base : Reg) (index : IdxReg) (disp : Word) (s : State) : Outcome :=
  settle (s.store8 data (s.ea base index .x4 disp))

/-- `LD16.X1` (42_moves R179). -/
def execLd16x1 (data base : Reg) (index : IdxReg) (s : State) : Outcome :=
  settle (s.load16 data (s.ea base index .x1 0#32))

/-- `LD16.X2` (42_moves R180). -/
def execLd16x2 (data base : Reg) (index : IdxReg) (s : State) : Outcome :=
  settle (s.load16 data (s.ea base index .x2 0#32))

/-- `LD16.X4` (42_moves R181). -/
def execLd16x4 (data base : Reg) (index : IdxReg) (s : State) : Outcome :=
  settle (s.load16 data (s.ea base index .x4 0#32))

/-- `LD16.X1.D` (42_moves R182). -/
def execLd16x1d (data base : Reg) (index : IdxReg) (disp : Word) (s : State) : Outcome :=
  settle (s.load16 data (s.ea base index .x1 disp))

/-- `LD16.X2.D` (42_moves R183). -/
def execLd16x2d (data base : Reg) (index : IdxReg) (disp : Word) (s : State) : Outcome :=
  settle (s.load16 data (s.ea base index .x2 disp))

/-- `LD16.X4.D` (42_moves R184). -/
def execLd16x4d (data base : Reg) (index : IdxReg) (disp : Word) (s : State) : Outcome :=
  settle (s.load16 data (s.ea base index .x4 disp))

/-- `ST16.X1` (42_moves R185). -/
def execSt16x1 (data base : Reg) (index : IdxReg) (s : State) : Outcome :=
  settle (s.store16 data (s.ea base index .x1 0#32))

/-- `ST16.X2` (42_moves R186). -/
def execSt16x2 (data base : Reg) (index : IdxReg) (s : State) : Outcome :=
  settle (s.store16 data (s.ea base index .x2 0#32))

/-- `ST16.X4` (42_moves R187). -/
def execSt16x4 (data base : Reg) (index : IdxReg) (s : State) : Outcome :=
  settle (s.store16 data (s.ea base index .x4 0#32))

/-- `ST16.X1.D` (42_moves R188). -/
def execSt16x1d (data base : Reg) (index : IdxReg) (disp : Word) (s : State) : Outcome :=
  settle (s.store16 data (s.ea base index .x1 disp))

/-- `ST16.X2.D` (42_moves R189). -/
def execSt16x2d (data base : Reg) (index : IdxReg) (disp : Word) (s : State) : Outcome :=
  settle (s.store16 data (s.ea base index .x2 disp))

/-- `ST16.X4.D` (42_moves R190). -/
def execSt16x4d (data base : Reg) (index : IdxReg) (disp : Word) (s : State) : Outcome :=
  settle (s.store16 data (s.ea base index .x4 disp))

/-- `LD32.X1` (42_moves R191). -/
def execLd32x1 (data base : Reg) (index : IdxReg) (s : State) : Outcome :=
  settle (s.load32 data (s.ea base index .x1 0#32))

/-- `LD32.X2` (42_moves R192). -/
def execLd32x2 (data base : Reg) (index : IdxReg) (s : State) : Outcome :=
  settle (s.load32 data (s.ea base index .x2 0#32))

/-- `LD32.X4` (42_moves R193). -/
def execLd32x4 (data base : Reg) (index : IdxReg) (s : State) : Outcome :=
  settle (s.load32 data (s.ea base index .x4 0#32))

/-- `LD32.X1.D` (42_moves R194). -/
def execLd32x1d (data base : Reg) (index : IdxReg) (disp : Word) (s : State) : Outcome :=
  settle (s.load32 data (s.ea base index .x1 disp))

/-- `LD32.X2.D` (42_moves R195). -/
def execLd32x2d (data base : Reg) (index : IdxReg) (disp : Word) (s : State) : Outcome :=
  settle (s.load32 data (s.ea base index .x2 disp))

/-- `LD32.X4.D` (42_moves R196). -/
def execLd32x4d (data base : Reg) (index : IdxReg) (disp : Word) (s : State) : Outcome :=
  settle (s.load32 data (s.ea base index .x4 disp))

/-- `ST32.X1` (42_moves R197). -/
def execSt32x1 (data base : Reg) (index : IdxReg) (s : State) : Outcome :=
  settle (s.store32 data (s.ea base index .x1 0#32))

/-- `ST32.X2` (42_moves R198). -/
def execSt32x2 (data base : Reg) (index : IdxReg) (s : State) : Outcome :=
  settle (s.store32 data (s.ea base index .x2 0#32))

/-- `ST32.X4` (42_moves R199). -/
def execSt32x4 (data base : Reg) (index : IdxReg) (s : State) : Outcome :=
  settle (s.store32 data (s.ea base index .x4 0#32))

/-- `ST32.X1.D` (42_moves R200). -/
def execSt32x1d (data base : Reg) (index : IdxReg) (disp : Word) (s : State) : Outcome :=
  settle (s.store32 data (s.ea base index .x1 disp))

/-- `ST32.X2.D` (42_moves R201). -/
def execSt32x2d (data base : Reg) (index : IdxReg) (disp : Word) (s : State) : Outcome :=
  settle (s.store32 data (s.ea base index .x2 disp))

/-- `ST32.X4.D` (42_moves R202). -/
def execSt32x4d (data base : Reg) (index : IdxReg) (disp : Word) (s : State) : Outcome :=
  settle (s.store32 data (s.ea base index .x4 disp))

end Sys2Proof.Machine
end

