-- ==== Sys2Proof/Machine/Stack.lean ====
section
/-! DEFINITION. The stack instructions (44_stack R260 to R266). -/

namespace Sys2Proof.Machine

/-- `PUSH rS`: the register is read before SP moves, and all five flags are cleared after the write (44_stack R261). -/
def execPush (reg : Reg) (s : State) : Outcome := settle ((s.push32 (s.reg reg)).map State.clearFlags)

/-- `POP rD`: the register is written after SP moved, and all five flags are cleared (44_stack R262). -/
def execPop (reg : Reg) (s : State) : Outcome := settle (s.pop32.map fun p => (p.2.writeReg reg p.1).clearFlags)

/-- `PUSHF`: one byte, no flag written (44_stack R263). -/
def execPushf (s : State) : Outcome := settle (s.push8 s.flags.pack)

/-- `POPF`: all five flags from the byte (44_stack R264). -/
def execPopf (s : State) : Outcome := settle (s.pop8.map fun p => p.2.withFlags (Flags.unpack p.1))

end Sys2Proof.Machine
end

