-- ==== Sys2Proof/Machine/System.lean ====
section
/-! DEFINITION. The system instructions (45_system R275 to R280). -/

namespace Sys2Proof.Machine

/-- Writes the flag a `Flag` operand names, or `raise UnknownOpcode(op)` where it names none (30_encoding R97). -/
def State.putFlag (s : State) (op k : Byte) (b : Bool) : Except State State :=
  match FlagName.ofIndex k with
  | some name => .ok (s.withFlags (s.flags.put name b))
  | none => .error (s.raise .unknownOpcode (zext8 op))

/-- `HALT`: `MODE <- halted`, `FAULT` not written (45_system R276). -/
def execHalt (s : State) : Outcome := .next (s.withMode .halted)

/-- `INT n`: one call of the hook, not gated by `F.I`, not touching the external request (45_system R277). -/
def execInt (n : Byte) (s : State) : Outcome := .next (s.callHook n)

/-- `SETF k`: `raise UnknownOpcode(0x06)` for an index above 4 (45_system R278). -/
def execSetf (k : Byte) (s : State) : Outcome := settle (s.putFlag 0x06#8 k true)

/-- `CLRF k`: `raise UnknownOpcode(0x07)` for an index above 4 (45_system R279). -/
def execClrf (k : Byte) (s : State) : Outcome := settle (s.putFlag 0x07#8 k false)

end Sys2Proof.Machine
end

