-- ==== Sys2Proof/Machine/Dispatch.lean ====
section
/-! DEFINITION. One arm per instruction: its meaning, run on the state whose `pc` is already the address of the next
instruction (30_encoding R78). -/

namespace Sys2Proof.Machine

/-- The meaning of an instruction. -/
def exec (i : Instr) (s : State) : Host.Outcome State Fault Refusal :=
  match i with
  | .halt => Sys2Proof.Machine.execHalt s
  | .ret => Sys2Proof.Machine.execRet s
  | .pushf => Sys2Proof.Machine.execPushf s
  | .popf => Sys2Proof.Machine.execPopf s
  | .int n => Sys2Proof.Machine.execInt n s
  | .setf k => Sys2Proof.Machine.execSetf k s
  | .clrf k => Sys2Proof.Machine.execClrf k s
  | .push reg => Sys2Proof.Machine.execPush reg s
  | .pop reg => Sys2Proof.Machine.execPop reg s
  | .jmpR reg => Sys2Proof.Machine.execJmpR reg s
  | .add dest src => Sys2Proof.Machine.execAdd dest src s
  | .adc dest src => Sys2Proof.Machine.execAdc dest src s
  | .sub dest src => Sys2Proof.Machine.execSub dest src s
  | .sbb dest src => Sys2Proof.Machine.execSbb dest src s
  | .cmp dest src => Sys2Proof.Machine.execCmp dest src s
  | .mul dest src => Sys2Proof.Machine.execMul dest src s
  | .umul dest src => Sys2Proof.Machine.execUmul dest src s
  | .div dest src => Sys2Proof.Machine.execDiv dest src s
  | .udiv dest src => Sys2Proof.Machine.execUdiv dest src s
  | .rem dest src => Sys2Proof.Machine.execRem dest src s
  | .and dest src => Sys2Proof.Machine.execAnd dest src s
  | .or dest src => Sys2Proof.Machine.execOr dest src s
  | .xor dest src => Sys2Proof.Machine.execXor dest src s
  | .shr dest src => Sys2Proof.Machine.execShr dest src s
  | .sar dest src => Sys2Proof.Machine.execSar dest src s
  | .shl dest src => Sys2Proof.Machine.execShl dest src s
  | .rol dest src => Sys2Proof.Machine.execRol dest src s
  | .ror dest src => Sys2Proof.Machine.execRor dest src s
  | .fadd dest src => Sys2Proof.Machine.execFadd dest src s
  | .fsub dest src => Sys2Proof.Machine.execFsub dest src s
  | .fmul dest src => Sys2Proof.Machine.execFmul dest src s
  | .fdiv dest src => Sys2Proof.Machine.execFdiv dest src s
  | .fcmp dest src => Sys2Proof.Machine.execFcmp dest src s
  | .movRR dest src => Sys2Proof.Machine.execMovRR dest src s
  | .movRI dest imm => Sys2Proof.Machine.execMovRI dest imm s
  | .jmp16 disp => Sys2Proof.Machine.execJmp16 disp s
  | .jmp32 disp => Sys2Proof.Machine.execJmp32 disp s
  | .jz16 disp => Sys2Proof.Machine.execJz16 disp s
  | .jz32 disp => Sys2Proof.Machine.execJz32 disp s
  | .jnz16 disp => Sys2Proof.Machine.execJnz16 disp s
  | .jnz32 disp => Sys2Proof.Machine.execJnz32 disp s
  | .jg16 disp => Sys2Proof.Machine.execJg16 disp s
  | .jg32 disp => Sys2Proof.Machine.execJg32 disp s
  | .jge16 disp => Sys2Proof.Machine.execJge16 disp s
  | .jge32 disp => Sys2Proof.Machine.execJge32 disp s
  | .jl16 disp => Sys2Proof.Machine.execJl16 disp s
  | .jl32 disp => Sys2Proof.Machine.execJl32 disp s
  | .jle16 disp => Sys2Proof.Machine.execJle16 disp s
  | .jle32 disp => Sys2Proof.Machine.execJle32 disp s
  | .ja16 disp => Sys2Proof.Machine.execJa16 disp s
  | .ja32 disp => Sys2Proof.Machine.execJa32 disp s
  | .jae16 disp => Sys2Proof.Machine.execJae16 disp s
  | .jae32 disp => Sys2Proof.Machine.execJae32 disp s
  | .jb16 disp => Sys2Proof.Machine.execJb16 disp s
  | .jb32 disp => Sys2Proof.Machine.execJb32 disp s
  | .jbe16 disp => Sys2Proof.Machine.execJbe16 disp s
  | .jbe32 disp => Sys2Proof.Machine.execJbe32 disp s
  | .jo16 disp => Sys2Proof.Machine.execJo16 disp s
  | .jo32 disp => Sys2Proof.Machine.execJo32 disp s
  | .jno16 disp => Sys2Proof.Machine.execJno16 disp s
  | .jno32 disp => Sys2Proof.Machine.execJno32 disp s
  | .call16 disp => Sys2Proof.Machine.execCall16 disp s
  | .call32 disp => Sys2Proof.Machine.execCall32 disp s
  | .ld8x1 data base index => Sys2Proof.Machine.execLd8x1 data base index s
  | .ld8x2 data base index => Sys2Proof.Machine.execLd8x2 data base index s
  | .ld8x4 data base index => Sys2Proof.Machine.execLd8x4 data base index s
  | .ld8x1d data base index disp => Sys2Proof.Machine.execLd8x1d data base index disp s
  | .ld8x2d data base index disp => Sys2Proof.Machine.execLd8x2d data base index disp s
  | .ld8x4d data base index disp => Sys2Proof.Machine.execLd8x4d data base index disp s
  | .st8x1 data base index => Sys2Proof.Machine.execSt8x1 data base index s
  | .st8x2 data base index => Sys2Proof.Machine.execSt8x2 data base index s
  | .st8x4 data base index => Sys2Proof.Machine.execSt8x4 data base index s
  | .st8x1d data base index disp => Sys2Proof.Machine.execSt8x1d data base index disp s
  | .st8x2d data base index disp => Sys2Proof.Machine.execSt8x2d data base index disp s
  | .st8x4d data base index disp => Sys2Proof.Machine.execSt8x4d data base index disp s
  | .ld16x1 data base index => Sys2Proof.Machine.execLd16x1 data base index s
  | .ld16x2 data base index => Sys2Proof.Machine.execLd16x2 data base index s
  | .ld16x4 data base index => Sys2Proof.Machine.execLd16x4 data base index s
  | .ld16x1d data base index disp => Sys2Proof.Machine.execLd16x1d data base index disp s
  | .ld16x2d data base index disp => Sys2Proof.Machine.execLd16x2d data base index disp s
  | .ld16x4d data base index disp => Sys2Proof.Machine.execLd16x4d data base index disp s
  | .st16x1 data base index => Sys2Proof.Machine.execSt16x1 data base index s
  | .st16x2 data base index => Sys2Proof.Machine.execSt16x2 data base index s
  | .st16x4 data base index => Sys2Proof.Machine.execSt16x4 data base index s
  | .st16x1d data base index disp => Sys2Proof.Machine.execSt16x1d data base index disp s
  | .st16x2d data base index disp => Sys2Proof.Machine.execSt16x2d data base index disp s
  | .st16x4d data base index disp => Sys2Proof.Machine.execSt16x4d data base index disp s
  | .ld32x1 data base index => Sys2Proof.Machine.execLd32x1 data base index s
  | .ld32x2 data base index => Sys2Proof.Machine.execLd32x2 data base index s
  | .ld32x4 data base index => Sys2Proof.Machine.execLd32x4 data base index s
  | .ld32x1d data base index disp => Sys2Proof.Machine.execLd32x1d data base index disp s
  | .ld32x2d data base index disp => Sys2Proof.Machine.execLd32x2d data base index disp s
  | .ld32x4d data base index disp => Sys2Proof.Machine.execLd32x4d data base index disp s
  | .st32x1 data base index => Sys2Proof.Machine.execSt32x1 data base index s
  | .st32x2 data base index => Sys2Proof.Machine.execSt32x2 data base index s
  | .st32x4 data base index => Sys2Proof.Machine.execSt32x4 data base index s
  | .st32x1d data base index disp => Sys2Proof.Machine.execSt32x1d data base index disp s
  | .st32x2d data base index disp => Sys2Proof.Machine.execSt32x2d data base index disp s
  | .st32x4d data base index disp => Sys2Proof.Machine.execSt32x4d data base index disp s

end Sys2Proof.Machine
end

