-- ==== Sys2Proof/Machine/Fetch.lean ====
section
/-! DEFINITION. Fetching an instruction's bytes (30_encoding R77, R78). -/

namespace Sys2Proof.Machine

/-- `Fetch8()`: the byte at `pc`, then `pc + 1` modulo `2^32`; where the read faults `pc` is not advanced
(30_encoding R77). -/
def State.fetch8 (s : State) : Except State (Byte × State) :=
  (s.memRead8 s.pc).map fun b => (b, s.withPc (s.pc + 1#32))

/-- `n` successive `Fetch8()`, the bytes in address order. -/
def State.fetchBytes (s : State) : Nat → Except State (List Byte × State)
  | 0 => .ok ([], s)
  | n + 1 =>
    match s.fetchBytes n with
    | .error t => .error t
    | .ok (bs, s1) => (s1.fetch8).map fun p => (bs ++ [p.1], p.2)

/-- Steps 1 to 3 of 30_encoding R78: the opcode byte, `raise UnknownOpcode(op)` before anything else is fetched if it
is not assigned (R95), then the operand bytes of its shape. The instruction comes with the state whose `pc` is the
address of the next instruction. The last arm is never met: a shape's own number of bytes always builds
(`Form.build_of_length`). -/
def State.fetchInstr (s : State) : Except State (Instr × State) :=
  match s.fetch8 with
  | .error t => .error t
  | .ok (op, s1) =>
    match formOf op with
    | none => .error (s1.raise .unknownOpcode (zext8 op))
    | some form =>
      match s1.fetchBytes form.operandBytes with
      | .error t => .error t
      | .ok (bs, s2) =>
        match form.build bs with
        | some r => .ok (r.1, s2)
        | none => .error (s2.raise .unknownOpcode (zext8 op))

end Sys2Proof.Machine
end

