-- ==== Sys2Proof/Machine/HostPort.lean ====
section
/-! DEFINITION. What the host and the platform do to the machine between steps (70_reset R320 to R323, R335). No step
calls any of these. -/

namespace Sys2Proof.Machine

/-- The reset event (70_reset R320), in either mode: registers 0 to 5 become unspecified, a fresh free value each time
(10_state R41); memory and the request are not touched. DESIGN CHOICE, unsafe (log 10): R41 does not say that two reads
of such a register before any write return the same pattern; here they do, one pattern per register and reset event. Nor
does it say what the patterns may depend on; here on the count of resets and on what the six registers held before. -/
def State.resetEvent (s : State) : State :=
  (((((s.withPc Config.resetPc).withFlags Flags.zero).withMode .running).withFault .none 0#32).withRegs
    (Config.unspecifiedRegs s.resets s.regs)).withResets (s.resets + 1)

/-- The environment presents a request, or withdraws it (60_exceptions R297). -/
def State.presentIrq (s : State) (request : Option Byte) : State := s.withIrq request

/-- The platform maps a range (70_reset R323). -/
def State.mapRange (s : State) (g : Region) : State := s.withMapped (s.mapped ++ [g])

/-- The host places a byte stream: byte `k` at `trunc32(base + k)` (70_reset R322). -/
def State.loadProgram (s : State) (base : Word) (stream : List Byte) : State := s.withMem (s.mem.writeBytes base stream)

/-- The status port: `MODE`, `FAULT`, `FAULT_INFO` (00_scope R8). -/
structure Status where
  mode : Mode
  fault : Cause
  faultInfo : Word
deriving DecidableEq, Repr

/-- What the status port shows. -/
def State.status (s : State) : Status := { mode := s.mode, fault := s.fault, faultInfo := s.faultInfo }

/-- The code of a cause on the status port (60_exceptions R291). -/
def Cause.code : Cause → Nat
  | .none => 0
  | .unknownOpcode => 1
  | .divideByZero => 2
  | .unmappedAddress => 3

/-- The six bytes at `a`, each a range of its own. -/
def sixBytes (a : Word) : List Region := (List.range 6).map fun k => ⟨(a + BitVec.ofNat 32 k).toNat, 1⟩

end Sys2Proof.Machine
end

