-- ==== Sys2Proof/Machine/Step.lean ====
section
/-! DEFINITION. One `step()`: one instruction, then at most one interrupt service (00_scope R13, 30_encoding R78). -/

namespace Sys2Proof.Machine

/-- One step. A halted core does nothing (60_exceptions R299). A fault of the fetch ends the step (60_exceptions R301);
otherwise the instruction runs and, if it completed, the interrupt check follows (R298). -/
def step (s : State) : Host.Outcome State Fault Refusal :=
  match s.mode with
  | .halted => .next s
  | .running =>
    match s.fetchInstr with
    | .error t => .next t
    | .ok (i, t) =>
      match exec i t with
      | .next u => .next (endOfStep i u)
      | .fault r => .fault r
      | .refused r => .refused r

/-- The state with an opcode-table word stored where the next step fetches: the word's six bytes at `pc`, the core
running, and those six addresses mapped where the platform does not map them already (log 3). -/
def State.withFetchWord (s : State) (nbits w : Nat) : State :=
  ((s.loadProgram s.pc (tableBytes nbits w)).withMode .running).withMapped
    (if s.portOk s.pc 6 then s.mapped else s.mapped ++ sixBytes s.pc)

end Sys2Proof.Machine
end

