-- ==== Sys2Proof/Safety.lean ====
section
/-! DEFINITION. The terms claims are stated in: how a run ends, the invariant of the machine, what an instruction leaves
unchanged, and names for the families of instructions that share a shape. -/

namespace Sys2Proof.Machine

/-! ### How a run ends (70_reset R325, 60_exceptions R311) -/

/-- A normal end by `HALT` (70_reset R325). -/
def State.endedNormally (s : State) : Prop := s.mode = .halted ∧ s.fault = .none

/-- An end by a fault (70_reset R325). -/
def State.endedByFault (s : State) : Prop := s.mode = .halted ∧ s.fault ≠ .none

/-- `run()` with a budget of steps (60_exceptions R311). -/
def runWithin : Nat → State → Outcome
  | 0, s => .next s
  | k + 1, s =>
    match s.mode with
    | .halted => .next s
    | .running =>
      match step s with
      | .next t => runWithin k t
      | .fault r => .fault r
      | .refused r => .refused r

/-- The run ends within `k` steps without a fault. -/
def safeWithin (k : Nat) (s : State) : Prop := ∃ t, runWithin k s = .next t ∧ t.endedNormally

/-! ### The invariant -/

/-- What the fault latch records fits its cause (60_exceptions R291): an unmapped access of at most 4 bytes has an
unmapped byte among the 4 from the recorded address. -/
def State.faultRecordOk (s : State) : Prop :=
  match s.fault with
  | .none => s.faultInfo = 0#32
  | .unknownOpcode => s.faultInfo.toNat < 256
  | .divideByZero => s.faultInfo = 0#32
  | .unmappedAddress => s.portOk s.faultInfo 4 = false

/-- Memory has its canonical form, a running core has no fault latched, and the fault record fits its cause. -/
structure State.Inv (s : State) : Prop where
  memWf : s.mem.wf = true
  runningNoFault : s.mode = .running → s.fault = .none
  faultRecord : s.faultRecordOk

/-! ### Frames -/

/-- Every byte of memory reads as before. -/
def SameMem (s t : State) : Prop := ∀ a : Word, t.byteAt a = s.byteAt a

/-- Everything that is neither a register, nor `pc`, nor a flag, nor a byte of memory is as before. -/
def SameRest (s t : State) : Prop :=
  t.mode = s.mode ∧ t.fault = s.fault ∧ t.faultInfo = s.faultInfo ∧ t.mapped = s.mapped ∧ t.irq = s.irq ∧
    t.hookCalls = s.hookCalls ∧ t.resets = s.resets

/-- Every numbered register, the program counter among them, reads as before. -/
def SameRegs (s t : State) : Prop := ∀ q : Reg, t.reg q = s.reg q

/-- Register `d` reads `v`, unless it is register 7, which reads 0 and whose write is discarded (10_state R25); every
other numbered register, the program counter among them, reads as before. -/
def Wrote (s t : State) (d : Reg) (v : Word) : Prop :=
  (∀ q : Reg, q ≠ d → t.reg q = s.reg q) ∧ t.reg d = if d = .zero then 0#32 else v

/-- The bytes from `a` on hold `bs`, every other byte reads as before. -/
def Stored (s t : State) (a : Word) (n : Nat) (v : Word) : Prop :=
  (∀ k : Nat, k < n → t.byteAt (a + BitVec.ofNat 32 k) = v.extractLsb' (8 * k) 8) ∧
    ∀ b : Word, (∀ k : Nat, k < n → b ≠ a + BitVec.ofNat 32 k) → t.byteAt b = s.byteAt b

/-- The low `n` bytes of `v` are the bytes of memory from `a` on, little-endian, and its upper bytes are 0. -/
def LoadedFrom (s : State) (a : Word) (n : Nat) (v : Word) : Prop :=
  ∀ k : Nat, k < 4 → v.extractLsb' (8 * k) 8 = if k < n then s.byteAt (a + BitVec.ofNat 32 k) else 0#8

/-- `t` is `s` halted with the fault latched, and differs from `s` in nothing else (60_exceptions R293). -/
def Raised (s t : State) (cause : Cause) (info : Word) : Prop :=
  t = { s with mode := .halted, fault := cause, faultInfo := info }

/-! ### Families of instructions -/

/-- The access widths (20_memory R51). -/
inductive Width where
  | w8
  | w16
  | w32
deriving DecidableEq, Repr

/-- The width in bytes. -/
def Width.bytes : Width → Nat
  | .w8 => 1
  | .w16 => 2
  | .w32 => 4

/-- The eighteen loads by width, scale and address offset (42_moves R203). -/
def loadOf (w : Width) (m : Scale) (d : Option Word) (data base : Reg) (index : IdxReg) : Instr :=
  match w, m, d with
  | .w8, .x1, none => .ld8x1 data base index
  | .w8, .x2, none => .ld8x2 data base index
  | .w8, .x4, none => .ld8x4 data base index
  | .w8, .x1, some d => .ld8x1d data base index d
  | .w8, .x2, some d => .ld8x2d data base index d
  | .w8, .x4, some d => .ld8x4d data base index d
  | .w16, .x1, none => .ld16x1 data base index
  | .w16, .x2, none => .ld16x2 data base index
  | .w16, .x4, none => .ld16x4 data base index
  | .w16, .x1, some d => .ld16x1d data base index d
  | .w16, .x2, some d => .ld16x2d data base index d
  | .w16, .x4, some d => .ld16x4d data base index d
  | .w32, .x1, none => .ld32x1 data base index
  | .w32, .x2, none => .ld32x2 data base index
  | .w32, .x4, none => .ld32x4 data base index
  | .w32, .x1, some d => .ld32x1d data base index d
  | .w32, .x2, some d => .ld32x2d data base index d
  | .w32, .x4, some d => .ld32x4d data base index d

/-- The eighteen stores by width, scale and address offset (42_moves R203). -/
def storeOf (w : Width) (m : Scale) (d : Option Word) (data base : Reg) (index : IdxReg) : Instr :=
  match w, m, d with
  | .w8, .x1, none => .st8x1 data base index
  | .w8, .x2, none => .st8x2 data base index
  | .w8, .x4, none => .st8x4 data base index
  | .w8, .x1, some d => .st8x1d data base index d
  | .w8, .x2, some d => .st8x2d data base index d
  | .w8, .x4, some d => .st8x4d data base index d
  | .w16, .x1, none => .st16x1 data base index
  | .w16, .x2, none => .st16x2 data base index
  | .w16, .x4, none => .st16x4 data base index
  | .w16, .x1, some d => .st16x1d data base index d
  | .w16, .x2, some d => .st16x2d data base index d
  | .w16, .x4, some d => .st16x4d data base index d
  | .w32, .x1, none => .st32x1 data base index
  | .w32, .x2, none => .st32x2 data base index
  | .w32, .x4, none => .st32x4 data base index
  | .w32, .x1, some d => .st32x1d data base index d
  | .w32, .x2, some d => .st32x2d data base index d
  | .w32, .x4, some d => .st32x4d data base index d

/-- The conditions of the twelve conditional jumps (43_control R217). -/
inductive Cond where
  | z
  | nz
  | g
  | ge
  | l
  | le
  | a
  | ae
  | b
  | be
  | o
  | no
deriving DecidableEq, Repr

/-- The table of 43_control R217, column "Taken when". -/
def Cond.taken (f : Flags) : Cond → Prop
  | .z => f.z = true
  | .nz => f.z = false
  | .g => f.z = false ∧ f.n = false
  | .ge => f.n = false
  | .l => f.n = true
  | .le => f.z = true ∨ f.n = true
  | .a => f.c = false ∧ f.z = false
  | .ae => f.c = false
  | .b => f.c = true
  | .be => f.c = true ∨ f.z = true
  | .o => f.o = true
  | .no => f.o = false

/-- The complementary condition (43_control R217, last sentence). -/
def Cond.complement : Cond → Cond
  | .z => .nz
  | .nz => .z
  | .g => .le
  | .ge => .l
  | .l => .ge
  | .le => .g
  | .a => .be
  | .ae => .b
  | .b => .ae
  | .be => .a
  | .o => .no
  | .no => .o

/-- The conditional jumps with a 16-bit displacement. -/
def jump16Of (c : Cond) (disp : BitVec 16) : Instr :=
  match c with
  | .z => .jz16 disp
  | .nz => .jnz16 disp
  | .g => .jg16 disp
  | .ge => .jge16 disp
  | .l => .jl16 disp
  | .le => .jle16 disp
  | .a => .ja16 disp
  | .ae => .jae16 disp
  | .b => .jb16 disp
  | .be => .jbe16 disp
  | .o => .jo16 disp
  | .no => .jno16 disp

/-- The conditional jumps with a 32-bit displacement. -/
def jump32Of (c : Cond) (disp : Word) : Instr :=
  match c with
  | .z => .jz32 disp
  | .nz => .jnz32 disp
  | .g => .jg32 disp
  | .ge => .jge32 disp
  | .l => .jl32 disp
  | .le => .jle32 disp
  | .a => .ja32 disp
  | .ae => .jae32 disp
  | .b => .jb32 disp
  | .be => .jbe32 disp
  | .o => .jo32 disp
  | .no => .jno32 disp

/-- The flags an instruction's rule lists as written (10_state R31), in the order Z, C, O, N, I. `INT` counts as
writing all five: the hook may. -/
def flagsWritten : Instr → Flags
  | .add _ _ | .adc _ _ | .sub _ _ | .sbb _ _ | .cmp _ _ => ⟨true, true, true, true, false⟩
  | .mul _ _ | .umul _ _ => ⟨true, false, false, true, false⟩
  | .div _ _ | .udiv _ _ | .rem _ _ => ⟨true, false, true, true, false⟩
  | .and _ _ | .or _ _ | .xor _ _ => ⟨true, true, true, true, false⟩
  | .shr _ _ | .sar _ _ | .shl _ _ => ⟨true, true, true, true, false⟩
  | .rol _ _ | .ror _ _ => ⟨true, true, true, true, false⟩
  | .fadd _ _ | .fsub _ _ | .fmul _ _ | .fdiv _ _ | .fcmp _ _ => ⟨true, true, true, true, false⟩
  | .push _ | .pop _ | .popf => ⟨true, true, true, true, true⟩
  | .int _ => ⟨true, true, true, true, true⟩
  | .setf k | .clrf k => ⟨decide (k = 0#8), decide (k = 1#8), decide (k = 2#8), decide (k = 3#8), decide (k = 4#8)⟩
  | _ => Flags.zero

/-- The instructions that may write memory: the stores, the pushes, `CALL`, and `INT` through the hook (20_memory R58,
60_exceptions R300). -/
def mayStore : Instr → Bool
  | .st8x1 _ _ _ | .st8x2 _ _ _ | .st8x4 _ _ _ | .st8x1d _ _ _ _ | .st8x2d _ _ _ _ | .st8x4d _ _ _ _ => true
  | .st16x1 _ _ _ | .st16x2 _ _ _ | .st16x4 _ _ _ | .st16x1d _ _ _ _ | .st16x2d _ _ _ _ | .st16x4d _ _ _ _ => true
  | .st32x1 _ _ _ | .st32x2 _ _ _ | .st32x4 _ _ _ | .st32x1d _ _ _ _ | .st32x2d _ _ _ _ | .st32x4d _ _ _ _ => true
  | .push _ | .pushf | .call16 _ | .call32 _ | .int _ => true
  | _ => false

/-- The opcode bytes 30_encoding R94 lists, as the ranges of R93 and R99. -/
def assignedOpcode (n : Nat) : Bool :=
  (decide (0x01 ≤ n) && decide (n ≤ 0x0A)) || (decide (0x10 ≤ n) && decide (n ≤ 0x21)) ||
    (decide (0x28 ≤ n) && decide (n ≤ 0x2C)) || (decide (0x30 ≤ n) && decide (n ≤ 0x31)) ||
    (decide (0x40 ≤ n) && decide (n ≤ 0x5B)) || (decide (0x80 ≤ n) && decide (n ≤ 0xAE) && decide (n % 4 ≠ 3))

/-- The bits of an operand byte that a shape looks at, for the byte after the opcode; every later byte is used whole
(30_encoding R96). -/
def usedBits : Form → Byte
  | .reg _ => 0x07#8
  | .imm32ToReg _ => 0x07#8
  | .twoRegs _ => 0x3F#8
  | _ => 0xFF#8

/-- Operand bytes with the bits their shape does not use cleared. -/
def keepUsedBits (form : Form) : List Byte → List Byte
  | [] => []
  | b :: more => (b &&& usedBits form) :: more

/-! ### Results of the ALU -/

/-- Overflow in the words of 40_alu_integer R121: `x` and `y` have the same bit 31 and `r` has the other one. -/
def signOverflow (x y r : Word) : Bool := decide (x.msb = y.msb) && decide (r.msb ≠ x.msb)

/-- The flags with Zero and Negative of the result `v`, and C and O as given; I unchanged (40_alu_integer R121). -/
def resultFlags (f : Flags) (v : Word) (c o : Bool) : Flags := ⟨decide (v = 0#32), c, o, v.msb, f.i⟩

/-- The instruction wrote `v` to `d`, its flags, and nothing else. -/
def AluEffect (s t : State) (d : Reg) (v : Word) (c o : Bool) : Prop :=
  Wrote s t d v ∧ t.flags = resultFlags s.flags v c o ∧ SameMem s t ∧ SameRest s t

/-- The order of binary32 values that are not NaN, read off their patterns: sign and magnitude, both zeros alike. -/
def orderKey (v : Word) : Int :=
  if v.msb then -((v.extractLsb' 0 31).toNat : Int) else ((v.extractLsb' 0 31).toNat : Int)

/-- The pattern is `+0` or `-0`. -/
def isZeroPattern (v : Word) : Prop := v.extractLsb' 0 31 = 0#31

/-- The pattern is an infinity. -/
def isInfPattern (v : Word) : Prop := v.extractLsb' 0 31 = 0x7F800000#31

/-- The pattern is a finite value: the exponent field is not 255 (41_alu_float R150). -/
def isFinitePattern (v : Word) : Prop := v.extractLsb' 23 8 ≠ 255#8

/-- The signed whole number of units of `2^-149` that a finite pattern stands for, read off its fields: exponent field 0
is zero or subnormal, any other has the leading one (41_alu_float R150). -/
def unitsOf (v : Word) : Int :=
  let e := (v.extractLsb' 23 8).toNat
  let f : Int := (v.extractLsb' 0 23).toNat
  let mag := if e = 0 then f else (2 ^ 23 + f) * 2 ^ (e - 1)
  if v.msb then -mag else mag

/-- `r` is the finite pattern nearest to `n / d` units: every finite pattern of another value is farther away, or as far
and `r` has an even last place (41_alu_float R152). -/
def Nearest (n : Int) (d : Nat) (r : Word) : Prop :=
  isFinitePattern r ∧ ∀ v : Word, isFinitePattern v → unitsOf v ≠ unitsOf r →
    (unitsOf r * d - n).natAbs < (unitsOf v * d - n).natAbs ∨
      (unitsOf r * d - n).natAbs = (unitsOf v * d - n).natAbs ∧ r.getLsbD 0 = false

/-- `r` is `n / d` units rounded to nearest, ties to even, with an infinity from half a unit in the last place above the
largest finite value up (41_alu_float R152). -/
def RoundedTo (n : Int) (d : Nat) (r : Word) : Prop :=
  if (2 ^ 25 - 1) * 2 ^ 252 * d ≤ n.natAbs then r = (if n < 0 then 0xFF800000#32 else 0x7F800000#32) else Nearest n d r

/-- The infinity with a sign. -/
def infPattern (neg : Bool) : Word := if neg then 0xFF800000#32 else 0x7F800000#32

/-- The zero with a sign. -/
def zeroPattern (neg : Bool) : Word := if neg then 0x80000000#32 else 0x00000000#32

/-- A float instruction wrote the pattern `v` to `d`, N as given, Z, C and O 0, and nothing else (41_alu_float R151). -/
def FloatEffect (s t : State) (d : Reg) (v : Word) (n : Bool) : Prop :=
  Wrote s t d v ∧ t.flags = ⟨false, false, false, n, s.flags.i⟩ ∧ SameMem s t ∧ SameRest s t

/-! ### The hook -/

/-- The last value a list of byte writes has for an address. -/
def lastWrite (a : Word) : List (Word × Byte) → Option Byte
  | [] => none
  | w :: ws => (lastWrite a ws).or (if w.1 = a then some w.2 else none)

end Sys2Proof.Machine
end

