-- ==== Sys2Proof/Certificates/Slice0/Obligations.lean ====
section
/-! DEFINITION. The statements for the provers. They come from the numbered rules of spec/; a docstring names the rule,
or says that the statement is about the model's own choice. `exec` runs on the state whose `pc` is already the address
of the next instruction. -/

open Sys2Proof Sys2Proof.Machine

/-! ### The codec and the fetch -/

/-- 30_encoding R92, first law: decoding an instruction's encoding gives it back and leaves the bytes after it, with
every operand at every value. -/
def Obligations.DecodeOfEncodeIsTheInstruction : Prop :=
  ∀ (i : Instr) (rest : List Byte), decode (encode i ++ rest) = .ok (i, rest)

/-- 30_encoding R92, second law: encoding a decoded instruction gives the bytes it was read from, with the bits the
shape does not use cleared. -/
def Obligations.EncodeOfDecodeKeepsTheUsedBits : Prop :=
  ∀ (op : Byte) (form : Form) (bs rest : List Byte) (i : Instr),
    formOf op = some form → decode (op :: bs) = .ok (i, rest) →
      ∃ operands : List Byte, bs = operands ++ rest ∧ operands.length = form.operandBytes ∧
        encode i = op :: keepUsedBits form operands

/-- 30_encoding R96: the unused bits of an operand byte, and bits 7:5 of a popped flags byte, are ignored. -/
def Obligations.UnusedOperandBitsAreIgnored : Prop :=
  (∀ (op : Byte) (form : Form) (bs : List Byte),
    formOf op = some form → decode (op :: keepUsedBits form bs) = decode (op :: bs)) ∧
  ∀ b : Byte, Flags.unpack (b &&& 0x1F#8) = Flags.unpack b

/-- Words written out from the layouts of 30_encoding R79 to R90 decode to the instruction they stand for. -/
def Obligations.WrittenOutWordsDecode : Prop :=
  decodeTableWord 8 0x01 = some .halt ∧
  decodeTableWord 16 0x0508 = some (.push .sp) ∧
  decodeTableWord 16 0x0810 = some (.add .r1 .r2) ∧
  decodeTableWord 16 0x2105 = some (.int 0x21#8) ∧
  decodeTableWord 48 0x123456780031 = some (.movRI .r1 0x12345678#32) ∧
  decodeTableWord 24 0xFFF048 = some (.jge16 0xFFF0#16) ∧
  decodeTableWord 40 0xFFFFFFFB41 = some (.jmp32 0xFFFFFFFB#32) ∧
  decodeTableWord 48 0xFFFFFFFF88AE = some (.st32x4d .r1 .r2 .r3 0xFFFFFFFF#32)

/-- 30_encoding R95: an opcode byte that R94 does not list faults after the opcode byte alone; there are 157 of them. -/
def Obligations.UnknownOpcodeByteFaults : Prop :=
  (∀ s : State, s.mode = .running → s.isMapped s.pc = true → assignedOpcode (s.byteAt s.pc).toNat = false →
    ∃ t, step s = .next t ∧
      Raised (s.withPc (s.pc + 1#32)) t .unknownOpcode ((s.byteAt s.pc).setWidth 32)) ∧
  ((List.range 256).filter fun n => !assignedOpcode n).length = 157

/-- 20_memory R62 and 60_exceptions R294: a fetch that meets an unmapped byte, at the opcode or at any operand byte,
leaves `pc` at that byte and records its address; nothing else changes. -/
def Obligations.UnmappedFetchFaultsAtTheByte : Prop :=
  ∀ (s : State) (k : Nat), s.mode = .running →
    (∀ j : Nat, j < k → s.isMapped (s.pc + BitVec.ofNat 32 j) = true) →
    s.isMapped (s.pc + BitVec.ofNat 32 k) = false →
    (k = 0 ∨ ∃ form, formOf (s.byteAt s.pc) = some form ∧ k ≤ form.operandBytes) →
    ∃ t, step s = .next t ∧
      Raised (s.withPc (s.pc + BitVec.ofNat 32 k)) t .unmappedAddress (s.pc + BitVec.ofNat 32 k)

/-- 30_encoding R78: where the bytes at `pc` decode to an instruction, a step moves `pc` past them, runs the
instruction, and makes the end-of-step interrupt check if it completed (60_exceptions R298). That completion is told by
the core still running or the instruction being `HALT` is the model's inference (log 12, DEDUCED); that the request is
a field of the state, and acceptance sets it to none, is the model's choice (log 6, DESIGN CHOICE). -/
def Obligations.StepRunsTheDecodedInstruction : Prop :=
  (∀ (s : State) (i : Instr) (n : Nat), s.mode = .running → s.portOk s.pc n = true →
    decode ((List.range n).map fun k => s.byteAt (s.pc + BitVec.ofNat 32 k)) = .ok (i, []) →
    step s = match exec i (s.withPc (s.pc + BitVec.ofNat 32 n)) with
      | .next u => .next (endOfStep i u)
      | .fault r => .fault r
      | .refused r => .refused r) ∧
  ∀ (i : Instr) (u : State),
    ((u.mode = .running ∨ i = .halt) → u.flags.i = true → ∀ n, u.irq = some n →
      endOfStep i u = (u.withIrq none).callHook n) ∧
    ((¬(u.mode = .running ∨ i = .halt) ∨ u.flags.i = false ∨ u.irq = none) → endOfStep i u = u)

/-! ### The whole machine -/

/-- 60_exceptions R299: a step of a halted core changes nothing, however many are taken. -/
def Obligations.HaltedCoreStaysAsItIs : Prop :=
  ∀ (k : Nat) (s : State), s.mode = .halted →
    step s = .next s ∧ Host.Core.run core k s = .next s ∧ runWithin k s = .next s

/-- Every step of the core has a next state: the model takes the spec's faults as events of the machine (60_exceptions
R293, log 11), and no instruction is left without a meaning. -/
def Obligations.EveryStepHasANextState : Prop := ∀ s : State, ∃ t, step s = .next t

/-- The invariant: memory in canonical form, no fault latched while running, the fault record fits its cause
(60_exceptions R291). Every step keeps it. -/
def Obligations.EveryStepKeepsTheInvariant : Prop :=
  ∀ s t : State, s.Inv → step s = .next t → t.Inv

/-- The invariant holds right after reset. -/
def Obligations.TheInvariantHoldsAtReset : Prop := State.reset.Inv

/-- 20_memory R53, R62 and 60_exceptions R300: no step changes a byte at an unmapped address, or the mapping. That the
mapping is a field no step writes, and that a hook's write to an unmapped byte is dropped, are the model's choices
(log 5, log 7). -/
def Obligations.NoStepChangesAnUnmappedByte : Prop :=
  ∀ s t : State, step s = .next t →
    t.mapped = s.mapped ∧ t.resets = s.resets ∧
      ∀ a : Word, s.isMapped a = false → t.byteAt a = s.byteAt a

/-- 10_state R33: a running core halts only by `HALT` or with a fault latched, and no step leaves `halted`. -/
def Obligations.OnlyHaltAndFaultsHaltTheCore : Prop :=
  (∀ s t : State, step s = .next t → s.mode = .halted → t.mode = .halted) ∧
  ∀ s t : State, step s = .next t → s.mode = .running → t.mode = .halted →
    t.fault ≠ .none ∨ ∃ u, s.fetchInstr = .ok (.halt, u)

/-- 60_exceptions R294: a step that latches a fault halts the core and leaves every register but SP and `pc`, every
flag, every byte of memory and the interrupt request as they were, and calls no hook. -/
def Obligations.FaultingStepWritesOnlySpAndPc : Prop :=
  ∀ s t : State, s.fault = .none → step s = .next t → t.fault ≠ .none →
    t.mode = .halted ∧ (∀ q : Reg, q ≠ .sp → q ≠ .pc → t.reg q = s.reg q) ∧ t.flags = s.flags ∧ SameMem s t ∧
      t.irq = s.irq ∧ t.hookCalls = s.hookCalls

/-- 60_exceptions R297, R298: a step leaves the request and calls the hook at most once (`INT`), or it withdraws the
request and calls the hook with its number, last in the step, after at most one call of `INT`. That the request is one
field and the calls are recorded are the model's choices (log 6, log 8). -/
def Obligations.RequestsAreConsumedByAHookCall : Prop :=
  ∀ s t : State, step s = .next t → ∃ calls : List Byte, calls.length ≤ 1 ∧
    (t.irq = s.irq ∧ t.hookCalls = calls ++ s.hookCalls ∨
      ∃ n, s.irq = some n ∧ t.irq = none ∧ s.mode = .running ∧ t.hookCalls = n :: calls ++ s.hookCalls)

/-- 10_state R31: a flag that an instruction's rule does not list as written keeps its value. -/
def Obligations.FlagsNotListedKeepTheirValue : Prop :=
  ∀ (i : Instr) (s t : State), exec i s = .next t →
    ((flagsWritten i).z = false → t.flags.z = s.flags.z) ∧ ((flagsWritten i).c = false → t.flags.c = s.flags.c) ∧
    ((flagsWritten i).o = false → t.flags.o = s.flags.o) ∧ ((flagsWritten i).n = false → t.flags.n = s.flags.n) ∧
    ((flagsWritten i).i = false → t.flags.i = s.flags.i)

/-- 20_memory R58: an instruction that is no store, push or call, and not `INT`, leaves every byte of memory as it
was. -/
def Obligations.OnlyStoringInstructionsWriteMemory : Prop :=
  ∀ (i : Instr) (s t : State), mayStore i = false → exec i s = .next t → SameMem s t

/-- 70_reset R320: what a reset event writes and leaves, and that the state after reset holds the values the rule gives
(registers 0 to 5 are unspecified there; their value in `State.reset` is the model's choice, log 1, and no part of this
statement). -/
def Obligations.ResetWritesWhatItsRuleLists : Prop :=
  (∀ s : State, s.resetEvent.pc = Config.resetPc ∧ s.resetEvent.flags = Flags.zero ∧ s.resetEvent.mode = .running ∧
    s.resetEvent.fault = .none ∧ s.resetEvent.faultInfo = 0#32 ∧ s.resetEvent.reg .zero = 0#32 ∧ SameMem s s.resetEvent ∧
    s.resetEvent.mapped = s.mapped ∧ s.resetEvent.irq = s.irq) ∧
  State.reset.pc = Config.resetPc ∧ State.reset.flags = Flags.zero ∧ State.reset.mode = .running ∧
    State.reset.fault = .none ∧ State.reset.faultInfo = 0#32

/-- 70_reset R322: byte `k` of a loaded stream lies at `trunc32(LOAD_BASE + k)`, every other byte is as before. -/
def Obligations.LoadedStreamReadsBack : Prop :=
  ∀ (s : State) (base : Word) (stream : List Byte), s.mem.wf = true → stream.length ≤ 2 ^ 32 →
    (∀ (k : Nat) (h : k < stream.length),
      (s.loadProgram base stream).byteAt (base + BitVec.ofNat 32 k) = stream[k]) ∧
    ∀ a : Word, (∀ k : Nat, k < stream.length → a ≠ base + BitVec.ofNat 32 k) →
      (s.loadProgram base stream).byteAt a = s.byteAt a

/-- The model's canonical form of memory (log 4): two memories in it that read alike everywhere are equal. -/
def Obligations.MemoriesThatReadAlikeAreEqual : Prop :=
  ∀ m m' : Memory, m.wf = true → m'.wf = true → (∀ a : Nat, m.read a = m'.read a) → m = m'

/-- 20_memory R55, an inference the spec marks as derived from R52 to R54: what narrower and overlapping reads see of a
32-bit write. -/
def Obligations.NarrowReadsSeeTheBytesOfAWideWrite : Prop :=
  ∀ (s t : State) (a v : Word), s.mem.wf = true → s.setMem32 a v = some t →
    t.getMem32 a = some v ∧ t.getMem16 a = some (v.extractLsb' 0 16) ∧
    t.getMem16 (a + 1#32) = some (v.extractLsb' 8 16) ∧ t.getMem16 (a + 2#32) = some (v.extractLsb' 16 16) ∧
    t.getMem8 a = some (v.extractLsb' 0 8) ∧ t.getMem8 (a + 1#32) = some (v.extractLsb' 8 8) ∧
    t.getMem8 (a + 2#32) = some (v.extractLsb' 16 8) ∧ t.getMem8 (a + 3#32) = some (v.extractLsb' 24 8)

/-! ### Integer arithmetic, logic, shifts and rotates -/

/-- 40_alu_integer R122, R123: `ADD` and `ADC` complete with the sum modulo `2^32`, C the carry out of 32 bits, O by
R121, and nothing else written. -/
def Obligations.AddAndAdcResult : Prop :=
  ∀ (s : State) (d r : Reg),
    (∃ t, exec (.add d r) s = .next t ∧
      AluEffect s t d (s.reg d + s.reg r) (decide (2 ^ 32 ≤ (s.reg d).toNat + (s.reg r).toNat))
        (signOverflow (s.reg d) (s.reg r) (s.reg d + s.reg r))) ∧
    ∃ t, exec (.adc d r) s = .next t ∧
      AluEffect s t d (s.reg d + s.reg r + BitVec.ofNat 32 s.flags.c.toNat)
        (decide (2 ^ 32 ≤ (s.reg d).toNat + (s.reg r).toNat + s.flags.c.toNat))
        (signOverflow (s.reg d) (s.reg r) (s.reg d + s.reg r + BitVec.ofNat 32 s.flags.c.toNat))

/-- 40_alu_integer R124, R125, R126: `SUB`, `SBB` and `CMP` complete with the difference modulo `2^32`, C the borrow, O
by the formula of R121 with `y` the source register's value; `CMP` writes no register. -/
def Obligations.SubSbbAndCmpResult : Prop :=
  ∀ (s : State) (d r : Reg),
    (∃ t, exec (.sub d r) s = .next t ∧
      AluEffect s t d (s.reg d - s.reg r) (decide ((s.reg d).toNat < (s.reg r).toNat))
        (signOverflow (s.reg d) (s.reg r) (s.reg d - s.reg r))) ∧
    (∃ t, exec (.sbb d r) s = .next t ∧
      AluEffect s t d (s.reg d - s.reg r - BitVec.ofNat 32 s.flags.c.toNat)
        (decide ((s.reg d).toNat < (s.reg r).toNat + s.flags.c.toNat))
        (signOverflow (s.reg d) (s.reg r) (s.reg d - s.reg r - BitVec.ofNat 32 s.flags.c.toNat))) ∧
    ∃ t, exec (.cmp d r) s = .next t ∧ SameRegs s t ∧
      t.flags = resultFlags s.flags (s.reg d - s.reg r) (decide ((s.reg d).toNat < (s.reg r).toNat))
        (signOverflow (s.reg d) (s.reg r) (s.reg d - s.reg r)) ∧ SameMem s t ∧ SameRest s t

/-- 40_alu_integer R127, R128: `MUL` and `UMUL` complete with the low 32 bits of the product, and C and O unchanged.
That the low 32 bits are the same for both readings of the operands, so that the two instructions give the same state,
is an inference the spec marks as its own (R128, derived from R127). -/
def Obligations.MulAndUmulResult : Prop :=
  ∀ (s : State) (d r : Reg),
    (∃ t, exec (.mul d r) s = .next t ∧
      AluEffect s t d (trunc32 ((s.reg d).toInt * (s.reg r).toInt)) s.flags.c s.flags.o) ∧
    ∃ t, exec (.umul d r) s = .next t ∧ AluEffect s t d (s.reg d * s.reg r) s.flags.c s.flags.o ∧
      exec (.mul d r) s = .next t

/-- 40_alu_integer R129, R130, R131: `DIV`, `UDIV` and `REM` complete for a divisor that is not 0, with C unchanged and
O 0; a divisor of 0 raises `DivideByZero` with nothing written. -/
def Obligations.DivUdivAndRemResult : Prop :=
  ∀ (s : State) (d r : Reg),
    (s.reg r ≠ 0#32 →
      (∃ t, exec (.div d r) s = .next t ∧ AluEffect s t d ((s.reg d).sdiv (s.reg r)) s.flags.c false) ∧
      (∃ t, exec (.udiv d r) s = .next t ∧ AluEffect s t d (s.reg d / s.reg r) s.flags.c false) ∧
      ∃ t, exec (.rem d r) s = .next t ∧ AluEffect s t d ((s.reg d).srem (s.reg r)) s.flags.c false) ∧
    (s.reg r = 0#32 →
      (∃ t, exec (.div d r) s = .next t ∧ Raised s t .divideByZero 0#32) ∧
      (∃ t, exec (.udiv d r) s = .next t ∧ Raised s t .divideByZero 0#32) ∧
      ∃ t, exec (.rem d r) s = .next t ∧ Raised s t .divideByZero 0#32)

/-- 40_alu_integer R141, last sentence, and R131's comment on its result: dividend is divisor times quotient plus
remainder as signed integers before truncation, the remainder smaller than the divisor and with the sign of the
dividend. -/
def Obligations.QuotientAndRemainderFitTogether : Prop :=
  ∀ (s t u : State) (d r : Reg), d ≠ .zero → s.reg r ≠ 0#32 →
    exec (.div d r) s = .next t → exec (.rem d r) s = .next u →
    ∃ q : Int, t.reg d = trunc32 q ∧ (s.reg d).toInt = (s.reg r).toInt * q + (u.reg d).toInt ∧
      (u.reg d).toInt.natAbs < (s.reg r).toInt.natAbs ∧ 0 ≤ (u.reg d).toInt * (s.reg d).toInt

/-- 40_alu_integer R132, R133, R134: `AND`, `OR` and `XOR` complete with the bitwise result, C and O 0. -/
def Obligations.AndOrXorResult : Prop :=
  ∀ (s : State) (d r : Reg),
    (∃ t, exec (.and d r) s = .next t ∧ AluEffect s t d (s.reg d &&& s.reg r) false false) ∧
    (∃ t, exec (.or d r) s = .next t ∧ AluEffect s t d (s.reg d ||| s.reg r) false false) ∧
    ∃ t, exec (.xor d r) s = .next t ∧ AluEffect s t d (s.reg d ^^^ s.reg r) false false

/-- 40_alu_integer R135, R136, R137: the shifts complete with the count modulo 32, C the last bit shifted out or 0 for
a count of 0, O 0. -/
def Obligations.ShiftResult : Prop :=
  ∀ (s : State) (d r : Reg) (n : Nat), n = (s.reg r).toNat % 32 →
    (∃ t, exec (.shr d r) s = .next t ∧
      AluEffect s t d (s.reg d >>> n) (decide (n ≠ 0) && (s.reg d).getLsbD (n - 1)) false) ∧
    (∃ t, exec (.sar d r) s = .next t ∧
      AluEffect s t d ((s.reg d).sshiftRight n) (decide (n ≠ 0) && (s.reg d).getLsbD (n - 1)) false) ∧
    ∃ t, exec (.shl d r) s = .next t ∧
      AluEffect s t d (s.reg d <<< n) (decide (n ≠ 0) && (s.reg d).getLsbD (32 - n)) false

/-- 40_alu_integer R138, R139: the rotates complete with the count modulo 32, C and O 0. -/
def Obligations.RotateResult : Prop :=
  ∀ (s : State) (d r : Reg) (n : Nat), n = (s.reg r).toNat % 32 →
    (∃ t, exec (.rol d r) s = .next t ∧ AluEffect s t d ((s.reg d).rotateLeft n) false false) ∧
    ∃ t, exec (.ror d r) s = .next t ∧ AluEffect s t d ((s.reg d).rotateRight n) false false

/-! ### Floating point -/

/-- 41_alu_float R151: the float instructions complete with the pattern of their rounded result, N its sign as a
number, Z, C and O 0; `FCMP` writes no register. What the results are is said by the statements after this one. -/
def Obligations.FloatInstructionsComplete : Prop :=
  ∀ (s : State) (d r : Reg) (x y : Word) (a b : F32),
    x = s.reg d → y = s.reg r → a = f32 x → b = f32 y →
    (∃ t, exec (.fadd d r) s = .next t ∧ Wrote s t d (resultBits .fadd x y (f32Add a b)) ∧
      t.flags = ⟨false, false, false, (f32Add a b).isNegative, s.flags.i⟩ ∧ SameMem s t ∧ SameRest s t) ∧
    (∃ t, exec (.fsub d r) s = .next t ∧ Wrote s t d (resultBits .fsub x y (f32Sub a b)) ∧
      t.flags = ⟨false, false, false, (f32Sub a b).isNegative, s.flags.i⟩ ∧ SameMem s t ∧ SameRest s t) ∧
    (∃ t, exec (.fmul d r) s = .next t ∧ Wrote s t d (resultBits .fmul x y (f32Mul a b)) ∧
      t.flags = ⟨false, false, false, (f32Mul a b).isNegative, s.flags.i⟩ ∧ SameMem s t ∧ SameRest s t) ∧
    (∃ t, exec (.fdiv d r) s = .next t ∧ Wrote s t d (resultBits .fdiv x y (f32Div a b)) ∧
      t.flags = ⟨false, false, false, (f32Div a b).isNegative, s.flags.i⟩ ∧ SameMem s t ∧ SameRest s t) ∧
    ∃ t, exec (.fcmp d r) s = .next t ∧ SameRegs s t ∧
      t.flags = ⟨false, false, false, (f32Sub a b).isNegative, s.flags.i⟩ ∧ SameMem s t ∧ SameRest s t

/-- 41_alu_float R150: `bits` is the inverse of `f32` on every pattern that is not a NaN. -/
def Obligations.FloatPatternsRoundTrip : Prop :=
  ∀ (op : FloatOp) (x y v : Word), isNanPattern v = false → resultBits op x y (f32 v) = v

/-- 41_alu_float R152: rounding gives the binary32 magnitude nearest to `n / d` units of `2^-149`, an even last place
where two are as near. The point of overflow, an infinity from half a unit in the last place above the largest finite
value up, is the standard's, which the spec does not spell out (log 15, PRESUMED). -/
def Obligations.RoundingIsToNearestEven : Prop :=
  ∀ (neg : Bool) (n d : Nat), 0 < d →
    (roundBinary32 neg n d = .inf neg ↔ (2 ^ 25 - 1) * 2 ^ 252 * d ≤ n) ∧
    ∀ m : Nat, roundBinary32 neg n d = .fin neg m →
      (∃ v, f32 v = .fin neg m) ∧
      ∀ (v : Word) (m' : Nat), f32 v = .fin neg m' → m' ≠ m →
        ((n : Int) - m * d).natAbs < ((n : Int) - m' * d).natAbs ∨
        ((n : Int) - m * d).natAbs = ((n : Int) - m' * d).natAbs ∧ (finiteBits neg m).getLsbD 0 = false

/-- 41_alu_float R152 to R156, on finite values: the sum, the difference, the product and the quotient of what the two
patterns stand for, rounded to nearest, ties to even, with overflow to an infinity, and N 1 exactly for a negative
result. Values are counted in units of `2^-149`, so that a product is divided and a quotient multiplied by `2^149`. The
point of overflow in `RoundedTo` is the standard's (log 15, PRESUMED). The sign of a result that is zero is said by
`InfinitiesAndZeroSigns`, a destination of register 7 by `FloatInstructionsComplete`. -/
def Obligations.FloatResultsAreRounded : Prop :=
  ∀ (s : State) (d r : Reg), d ≠ .zero → isFinitePattern (s.reg d) → isFinitePattern (s.reg r) →
    (∃ t, exec (.fadd d r) s = .next t ∧ RoundedTo (unitsOf (s.reg d) + unitsOf (s.reg r)) 1 (t.reg d) ∧
      (t.flags.n = true ↔ orderKey (t.reg d) < 0)) ∧
    (∃ t, exec (.fsub d r) s = .next t ∧ RoundedTo (unitsOf (s.reg d) - unitsOf (s.reg r)) 1 (t.reg d) ∧
      (t.flags.n = true ↔ orderKey (t.reg d) < 0)) ∧
    (∃ t, exec (.fmul d r) s = .next t ∧ RoundedTo (unitsOf (s.reg d) * unitsOf (s.reg r)) (2 ^ 149) (t.reg d) ∧
      (t.flags.n = true ↔ orderKey (t.reg d) < 0)) ∧
    (unitsOf (s.reg r) ≠ 0 → ∃ t, exec (.fdiv d r) s = .next t ∧
      RoundedTo (unitsOf (s.reg d) * 2 ^ 149 * (unitsOf (s.reg r)).sign) (unitsOf (s.reg r)).natAbs (t.reg d) ∧
      (t.flags.n = true ↔ orderKey (t.reg d) < 0))

/-- 41_alu_float R152: the invalid operations give some NaN pattern and N 0, a finite value that is not 0 over a zero
gives an infinity, and none of them faults or writes anything but its destination and the flags. That the sign of that
infinity is the exclusive or of the signs is the standard's, which the spec names and shows in the examples of R156
(log 15, PRESUMED). -/
def Obligations.InvalidFloatOperationsGiveNan : Prop :=
  ∀ (s : State) (d r : Reg) (x y : Word), x = s.reg d → y = s.reg r →
    ((isNanPattern x = true ∨ isNanPattern y = true) →
      ∀ i : Instr, i = .fadd d r ∨ i = .fsub d r ∨ i = .fmul d r ∨ i = .fdiv d r →
        ∃ t v, exec i s = .next t ∧ isNanPattern v = true ∧ FloatEffect s t d v false) ∧
    (isInfPattern x → isInfPattern y → x.msb ≠ y.msb →
      ∃ t v, exec (.fadd d r) s = .next t ∧ isNanPattern v = true ∧ FloatEffect s t d v false) ∧
    (isInfPattern x → isInfPattern y → x.msb = y.msb →
      ∃ t v, exec (.fsub d r) s = .next t ∧ isNanPattern v = true ∧ FloatEffect s t d v false) ∧
    (isZeroPattern x ∧ isInfPattern y ∨ isInfPattern x ∧ isZeroPattern y →
      ∃ t v, exec (.fmul d r) s = .next t ∧ isNanPattern v = true ∧ FloatEffect s t d v false) ∧
    (isZeroPattern x → isZeroPattern y →
      ∃ t v, exec (.fdiv d r) s = .next t ∧ isNanPattern v = true ∧ FloatEffect s t d v false) ∧
    (isNanPattern x = false → ¬isInfPattern x → ¬isZeroPattern x → isZeroPattern y →
      ∃ t, exec (.fdiv d r) s = .next t ∧ FloatEffect s t d (infPattern (x.msb ^^ y.msb)) (x.msb ^^ y.msb))

/-- The model's reading of IEEE-754 (log 15, PRESUMED) where 41_alu_float names only the standard: an infinity with a
finite value, two infinities, and the sign of every result of finite operands that is zero, exactly or by rounding. The
spec itself shows four instances: `1.0 + -1.0` is `+0` (R153), `2.5 - 2.5` is `+0` and `-0 - +0` is `-0` (R154),
`-0 * 5.0` is `-0` (R155). A sum or difference of binary32 values rounds to zero only where it is zero. -/
def Obligations.InfinitiesAndZeroSigns : Prop :=
  ∀ (s : State) (d r : Reg) (x y : Word), x = s.reg d → y = s.reg r →
    (isInfPattern x → isFinitePattern y →
      (∃ t, exec (.fadd d r) s = .next t ∧ FloatEffect s t d x x.msb) ∧
      (∃ t, exec (.fsub d r) s = .next t ∧ FloatEffect s t d x x.msb) ∧
      ∃ t, exec (.fdiv d r) s = .next t ∧ FloatEffect s t d (infPattern (x.msb ^^ y.msb)) (x.msb ^^ y.msb)) ∧
    (isFinitePattern x → isInfPattern y →
      (∃ t, exec (.fadd d r) s = .next t ∧ FloatEffect s t d y y.msb) ∧
      (∃ t, exec (.fsub d r) s = .next t ∧ FloatEffect s t d (infPattern (!y.msb)) (!y.msb)) ∧
      ∃ t, exec (.fdiv d r) s = .next t ∧ FloatEffect s t d (zeroPattern (x.msb ^^ y.msb)) false) ∧
    (isInfPattern x → isInfPattern y →
      (x.msb = y.msb → ∃ t, exec (.fadd d r) s = .next t ∧ FloatEffect s t d x x.msb) ∧
      (x.msb ≠ y.msb → ∃ t, exec (.fsub d r) s = .next t ∧ FloatEffect s t d x x.msb) ∧
      ∃ t v, exec (.fdiv d r) s = .next t ∧ isNanPattern v = true ∧ FloatEffect s t d v false) ∧
    (isInfPattern x ∧ isFinitePattern y ∧ ¬isZeroPattern y ∨ isFinitePattern x ∧ ¬isZeroPattern x ∧ isInfPattern y ∨
        isInfPattern x ∧ isInfPattern y →
      ∃ t, exec (.fmul d r) s = .next t ∧ FloatEffect s t d (infPattern (x.msb ^^ y.msb)) (x.msb ^^ y.msb)) ∧
    (isFinitePattern x → isFinitePattern y →
      (unitsOf x + unitsOf y = 0 →
        ∃ t, exec (.fadd d r) s = .next t ∧ FloatEffect s t d (zeroPattern (x.msb && y.msb)) false) ∧
      (unitsOf x - unitsOf y = 0 →
        ∃ t, exec (.fsub d r) s = .next t ∧ FloatEffect s t d (zeroPattern (x.msb && !y.msb)) false) ∧
      (2 * (unitsOf x * unitsOf y).natAbs ≤ 2 ^ 149 →
        ∃ t, exec (.fmul d r) s = .next t ∧ FloatEffect s t d (zeroPattern (x.msb ^^ y.msb)) false) ∧
      (unitsOf y ≠ 0 → 2 * (unitsOf x).natAbs * 2 ^ 149 ≤ (unitsOf y).natAbs →
        ∃ t, exec (.fdiv d r) s = .next t ∧ FloatEffect s t d (zeroPattern (x.msb ^^ y.msb)) false))

/-- 41_alu_float R157: after `FCMP`, N is 1 exactly when the first value is less than the second, and 0 when either is
a NaN; the order of the values is read off their patterns. -/
def Obligations.FcmpOrdersTheValues : Prop :=
  ∀ (s : State) (d r : Reg),
    ((isNanPattern (s.reg d) = true ∨ isNanPattern (s.reg r) = true) →
      ∃ t, exec (.fcmp d r) s = .next t ∧ t.flags.n = false) ∧
    (isNanPattern (s.reg d) = false → isNanPattern (s.reg r) = false →
      ∃ t, exec (.fcmp d r) s = .next t ∧ (t.flags.n = true ↔ orderKey (s.reg d) < orderKey (s.reg r)))

/-! ### Moves -/

/-- 42_moves R165, R166: the register and the immediate move complete, write their destination and nothing else. -/
def Obligations.MovResult : Prop :=
  ∀ (s : State) (d r : Reg) (imm : Word),
    (∃ t, exec (.movRR d r) s = .next t ∧ Wrote s t d (s.reg r) ∧ t.flags = s.flags ∧ SameMem s t ∧ SameRest s t) ∧
    ∃ t, exec (.movRI d imm) s = .next t ∧ Wrote s t d imm ∧ t.flags = s.flags ∧ SameMem s t ∧ SameRest s t

/-- 42_moves R204: each of the eighteen loads completes where its bytes are mapped, with the zero-extended
little-endian bytes at the effective address in the whole register, and faults with nothing written where one is not. -/
def Obligations.LoadResult : Prop :=
  ∀ (w : Width) (m : Scale) (disp : Option Word) (data base : Reg) (index : IdxReg) (s : State) (a : Word),
    a = s.reg base + s.reg index.toReg * BitVec.ofNat 32 m.factor + disp.getD 0#32 →
    (s.portOk a w.bytes = true →
      ∃ t v, exec (loadOf w m disp data base index) s = .next t ∧ LoadedFrom s a w.bytes v ∧ Wrote s t data v ∧
        t.flags = s.flags ∧ SameMem s t ∧ SameRest s t) ∧
    (s.portOk a w.bytes = false →
      ∃ t, exec (loadOf w m disp data base index) s = .next t ∧ Raised s t .unmappedAddress a)

/-- 42_moves R205: each of the eighteen stores completes where its bytes are mapped, with the low bytes of the register
at the effective address and no register or flag written, and faults with no byte written where one is not. -/
def Obligations.StoreResult : Prop :=
  ∀ (w : Width) (m : Scale) (disp : Option Word) (data base : Reg) (index : IdxReg) (s : State) (a : Word),
    s.mem.wf = true → a = s.reg base + s.reg index.toReg * BitVec.ofNat 32 m.factor + disp.getD 0#32 →
    (s.portOk a w.bytes = true →
      ∃ t, exec (storeOf w m disp data base index) s = .next t ∧ Stored s t a w.bytes (s.reg data) ∧ SameRegs s t ∧
        t.flags = s.flags ∧ SameRest s t) ∧
    (s.portOk a w.bytes = false →
      ∃ t, exec (storeOf w m disp data base index) s = .next t ∧ Raised s t .unmappedAddress a)

/-! ### Control transfer -/

/-- 43_control R218, R219, R220: the unconditional jumps complete and write `pc` alone. -/
def Obligations.UnconditionalJumpResult : Prop :=
  ∀ (s : State) (q : Reg) (d16 : BitVec 16) (d32 : Word),
    exec (.jmpR q) s = .next { s with pc := s.reg q } ∧
    exec (.jmp16 d16) s = .next { s with pc := s.pc + d16.signExtend 32 } ∧
    exec (.jmp32 d32) s = .next { s with pc := s.pc + d32 }

/-- 43_control R216, R217: each conditional jump completes; taken exactly when its predicate holds it writes `pc`
alone, otherwise nothing. The six pairs are complements. -/
def Obligations.ConditionalJumpResult : Prop :=
  ∀ (c : Cond) (s : State) (d16 : BitVec 16) (d32 : Word),
    (c.taken s.flags →
      exec (jump16Of c d16) s = .next { s with pc := s.pc + d16.signExtend 32 } ∧
      exec (jump32Of c d32) s = .next { s with pc := s.pc + d32 }) ∧
    (¬c.taken s.flags → exec (jump16Of c d16) s = .next s ∧ exec (jump32Of c d32) s = .next s) ∧
    (c.complement.taken s.flags ↔ ¬c.taken s.flags)

/-- 43_control R245, R246: a call completes where the new stack word is mapped: SP advances by 4, the word holds the
address of the next instruction, `pc` is the target, and nothing else changes; where it is not mapped it faults with
SP advanced and the jump not made. -/
def Obligations.CallResult : Prop :=
  ∀ (s : State) (d16 : BitVec 16) (d32 disp : Word) (i : Instr), s.mem.wf = true →
    (i = .call16 d16 ∧ disp = d16.signExtend 32 ∨ i = .call32 d32 ∧ disp = d32) →
    (s.portOk (s.reg .sp + 4#32) 4 = true →
      ∃ t, exec i s = .next t ∧ Stored s t (s.reg .sp + 4#32) 4 s.pc ∧ t.reg .sp = s.reg .sp + 4#32 ∧
        t.pc = s.pc + disp ∧ (∀ q : Reg, q ≠ .sp → q ≠ .pc → t.reg q = s.reg q) ∧ t.flags = s.flags ∧ SameRest s t) ∧
    (s.portOk (s.reg .sp + 4#32) 4 = false →
      ∃ t, exec i s = .next t ∧
        Raised (s.writeReg .sp (s.reg .sp + 4#32)) t .unmappedAddress (s.reg .sp + 4#32))

/-- 43_control R250: a return completes where the stack word is mapped: `pc` is the word, SP retreats by 4, and nothing
else changes; where it is not mapped it faults with nothing changed. -/
def Obligations.RetResult : Prop :=
  ∀ s : State,
    (s.portOk (s.reg .sp) 4 = true →
      ∃ t, exec .ret s = .next t ∧ LoadedFrom s (s.reg .sp) 4 t.pc ∧ t.reg .sp = s.reg .sp - 4#32 ∧
        (∀ q : Reg, q ≠ .sp → q ≠ .pc → t.reg q = s.reg q) ∧ t.flags = s.flags ∧ SameMem s t ∧ SameRest s t) ∧
    (s.portOk (s.reg .sp) 4 = false → ∃ t, exec .ret s = .next t ∧ Raised s t .unmappedAddress (s.reg .sp))

/-- 44_stack R265, fifth law, an inference the spec marks as derived: a call of either width and then a return, with the
stack not used between, come back to the address after the call with SP restored. -/
def Obligations.CallThenRetComesBack : Prop :=
  ∀ (s : State) (i : Instr) (d16 : BitVec 16) (d32 pc' : Word), (i = .call16 d16 ∨ i = .call32 d32) →
    s.mem.wf = true → s.portOk (s.reg .sp + 4#32) 4 = true →
    ∃ t u, exec i s = .next t ∧ exec .ret (t.withPc pc') = .next u ∧ u.pc = s.pc ∧ SameRegs s u ∧ u.flags = s.flags

/-! ### Stack -/

/-- 44_stack R261: `PUSH` completes where the new stack word is mapped: SP advances by 4, the word holds the register
as it was before, all five flags are 0; where it is not mapped it faults with SP advanced and the flags kept. -/
def Obligations.PushResult : Prop :=
  ∀ (s : State) (q : Reg), s.mem.wf = true →
    (s.portOk (s.reg .sp + 4#32) 4 = true →
      ∃ t, exec (.push q) s = .next t ∧ Stored s t (s.reg .sp + 4#32) 4 (s.reg q) ∧
        Wrote s t .sp (s.reg .sp + 4#32) ∧ t.flags = Flags.zero ∧ SameRest s t) ∧
    (s.portOk (s.reg .sp + 4#32) 4 = false →
      ∃ t, exec (.push q) s = .next t ∧
        Raised (s.writeReg .sp (s.reg .sp + 4#32)) t .unmappedAddress (s.reg .sp + 4#32))

/-- 44_stack R262: `POP` completes where the stack word is mapped: SP retreats by 4, then the register takes the word
(so `POP sp` ends with the word), all five flags are 0; where it is not mapped it faults with nothing changed. -/
def Obligations.PopResult : Prop :=
  ∀ (s : State) (q : Reg),
    (s.portOk (s.reg .sp) 4 = true →
      ∃ t v, exec (.pop q) s = .next t ∧ LoadedFrom s (s.reg .sp) 4 v ∧
        Wrote (s.writeReg .sp (s.reg .sp - 4#32)) t q v ∧ t.flags = Flags.zero ∧ SameMem s t ∧ SameRest s t) ∧
    (s.portOk (s.reg .sp) 4 = false → ∃ t, exec (.pop q) s = .next t ∧ Raised s t .unmappedAddress (s.reg .sp))

/-- 44_stack R263, R264 and 10_state R30: `PUSHF` writes the packed flags byte at SP + 1 and no flag; `POPF` reads all
five flags from the byte at SP; their faults. Bit by bit: Z, C, O, N, I are bits 0 to 4. -/
def Obligations.PushfAndPopfResult : Prop :=
  ∀ s : State, s.mem.wf = true →
    (s.isMapped (s.reg .sp + 1#32) = true →
      ∃ t v, exec .pushf s = .next t ∧ Stored s t (s.reg .sp + 1#32) 1 v ∧ Wrote s t .sp (s.reg .sp + 1#32) ∧
        v.getLsbD 0 = s.flags.z ∧ v.getLsbD 1 = s.flags.c ∧ v.getLsbD 2 = s.flags.o ∧ v.getLsbD 3 = s.flags.n ∧
        v.getLsbD 4 = s.flags.i ∧ v.extractLsb' 5 27 = 0#27 ∧ t.flags = s.flags ∧ SameRest s t) ∧
    (s.isMapped (s.reg .sp + 1#32) = false →
      ∃ t, exec .pushf s = .next t ∧
        Raised (s.writeReg .sp (s.reg .sp + 1#32)) t .unmappedAddress (s.reg .sp + 1#32)) ∧
    (s.isMapped (s.reg .sp) = true →
      ∃ t, exec .popf s = .next t ∧ Wrote s t .sp (s.reg .sp - 1#32) ∧
        t.flags = ⟨(s.byteAt (s.reg .sp)).getLsbD 0, (s.byteAt (s.reg .sp)).getLsbD 1,
          (s.byteAt (s.reg .sp)).getLsbD 2, (s.byteAt (s.reg .sp)).getLsbD 3, (s.byteAt (s.reg .sp)).getLsbD 4⟩ ∧
        SameMem s t ∧ SameRest s t) ∧
    (s.isMapped (s.reg .sp) = false → ∃ t, exec .popf s = .next t ∧ Raised s t .unmappedAddress (s.reg .sp))

/-- 44_stack R265, first two laws, an inference the spec marks as derived: a push and then a pop move the word, restore
SP and clear the flags; `PUSHF` and then `POPF` restore SP and all five flags. -/
def Obligations.PushThenPopMovesTheWord : Prop :=
  ∀ (s : State) (q p : Reg), s.mem.wf = true →
    (s.portOk (s.reg .sp + 4#32) 4 = true → p ≠ .sp → p ≠ .pc → p ≠ .zero →
      ∃ t u, exec (.push q) s = .next t ∧ exec (.pop p) t = .next u ∧ u.reg p = s.reg q ∧ u.reg .sp = s.reg .sp ∧
        u.flags = Flags.zero ∧ Stored s u (s.reg .sp + 4#32) 4 (s.reg q)) ∧
    (s.isMapped (s.reg .sp + 1#32) = true →
      ∃ t u, exec .pushf s = .next t ∧ exec .popf t = .next u ∧ SameRegs s u ∧ u.flags = s.flags)

/-! ### System -/

/-- 45_system R276: `HALT` completes, halts the core and writes nothing else; the step that ran it makes the interrupt
check (60_exceptions R298), and the core then stays as it is, however many steps are taken. Opcode `0x00` is no `HALT`,
it is unknown. That acceptance sets the held request to none is the model's choice (log 6, DESIGN CHOICE). -/
def Obligations.HaltResult : Prop :=
  (∀ s : State, exec .halt s = .next { s with mode := .halted }) ∧
  ∀ s : State, s.mode = .running → s.isMapped s.pc = true → s.byteAt s.pc = 0x01#8 →
    (s.flags.i = false ∨ s.irq = none → step s = .next { s with pc := s.pc + 1#32, mode := .halted }) ∧
    (s.flags.i = true → ∀ n, s.irq = some n →
      step s = .next (State.callHook { s with pc := s.pc + 1#32, mode := .halted, irq := none } n)) ∧
    formOf 0x00#8 = none ∧ ∀ (t : State) (k : Nat), step s = .next t → Host.Core.run core k t = .next t

/-- 45_system R277 and 60_exceptions R300: `INT n` completes with one call of the hook with `n`, whatever the
interrupt-enable flag; registers 0 to 6 and the flags are the hook's, a mapped byte takes the last value the hook writes
to it, and nothing else changes. That the hook's result is a list of byte writes, and that its write to an unmapped byte
is dropped, are the model's choices (log 7), as are the record of the calls (log 8) and the mapping and the request as
fields of the state (log 5, log 6). -/
def Obligations.IntCallsTheHookOnce : Prop :=
  ∀ (s : State) (n : Byte) (out : HookResult), s.mem.wf = true → out = Config.intHook s.hookCalls n s.hookView →
    ∃ t, exec (.int n) s = .next t ∧ t.regs = out.regs ∧ t.pc = out.pc ∧ t.flags = out.flags ∧
      t.hookCalls = n :: s.hookCalls ∧ t.mode = s.mode ∧ t.fault = s.fault ∧ t.faultInfo = s.faultInfo ∧
      t.mapped = s.mapped ∧ t.irq = s.irq ∧ t.resets = s.resets ∧ t.reg .zero = 0#32 ∧
      ∀ a : Word, t.byteAt a =
        if s.isMapped a then (lastWrite a out.writes).getD (s.byteAt a) else s.byteAt a

/-- 45_system R278, R279: `SETF k` and `CLRF k` complete for an index 0 to 4, writing that bit of the packed flags and
nothing else; a greater index raises `UnknownOpcode` with the opcode byte and writes no flag. -/
def Obligations.SetfAndClrfResult : Prop :=
  ∀ (s : State) (k : Byte),
    (k.toNat ≤ 4 →
      (∃ t, exec (.setf k) s = .next t ∧ t.flags.pack = s.flags.pack ||| 1#8 <<< k.toNat ∧
        t = { s with flags := t.flags }) ∧
      ∃ t, exec (.clrf k) s = .next t ∧ t.flags.pack = s.flags.pack &&& ~~~(1#8 <<< k.toNat) ∧
        t = { s with flags := t.flags }) ∧
    (4 < k.toNat →
      (∃ t, exec (.setf k) s = .next t ∧ Raised s t .unknownOpcode 0x06#32) ∧
      ∃ t, exec (.clrf k) s = .next t ∧ Raised s t .unknownOpcode 0x07#32)
end

