-- ==== Sys2Proof/Laws/Decode.lean ====
section
/-! SUPPORT. The laws of the codec's parts: register numbers, the ModRR byte, little-endian fields, the shapes. -/

namespace Sys2Proof

@[simp] theorem Reg.ofBits_toBits (q : Reg) : Reg.ofBits q.toBits = q := by cases q <;> rfl

theorem Reg.toBits_ofBits (b : BitVec 3) : (Reg.ofBits b).toBits = b := by
  revert b; decide

@[simp] theorem IdxReg.ofBits_toBits (q : IdxReg) : IdxReg.ofBits q.toBits = q := by cases q <;> rfl

theorem IdxReg.toBits_ofBits (b : BitVec 2) : (IdxReg.ofBits b).toBits = b := by
  revert b; decide

theorem unpackModRR_packModRR (m : ModRR) : unpackModRR (packModRR m) = m := by
  obtain ⟨d, s, i⟩ := m
  revert d s i
  decide

@[simp] theorem unpackModRR_packModRR_mk (d s : BitVec 3) (i : BitVec 2) :
    unpackModRR (packModRR ⟨d, s, i⟩) = ⟨d, s, i⟩ :=
  unpackModRR_packModRR ⟨d, s, i⟩

theorem packModRR_unpackModRR (b : Byte) : packModRR (unpackModRR b) = b := by
  revert b; decide

@[simp] theorem extract_packModRR (d s : BitVec 3) (i : BitVec 2) : (packModRR ⟨d, s, i⟩).extractLsb' 0 3 = d := by
  revert d s i; decide

@[simp] theorem le16_bytes16 (v : BitVec 16) : le16 (v.extractLsb' 0 8) (v.extractLsb' 8 8) = v := by
  unfold le16
  apply BitVec.eq_of_getLsbD_eq
  intro i hi
  rw [BitVec.getLsbD_append]
  simp only [BitVec.getLsbD_extractLsb']
  split
  · simp [*]
  · rename_i h
    have : 8 + (i - 8) = i := by omega
    simp [this, show i - 8 < 8 by omega]

@[simp] theorem le32_bytes32 (v : Word) :
    le32 (v.extractLsb' 0 8) (v.extractLsb' 8 8) (v.extractLsb' 16 8) (v.extractLsb' 24 8) = v := by
  unfold le32
  apply BitVec.eq_of_getLsbD_eq
  intro i hi
  simp only [BitVec.getLsbD_append, BitVec.getLsbD_extractLsb']
  by_cases h1 : i < 8
  · simp [h1]
  by_cases h2 : i - 8 < 8
  · simp [h1, h2, show 8 + (i - 8) = i by omega]
  by_cases h3 : i - 8 - 8 < 8
  · simp [h1, h2, h3, show 16 + (i - 8 - 8) = i by omega]
  · simp [h1, h2, h3, show 24 + (i - 8 - 8 - 8) = i by omega, show i - 8 - 8 - 8 < 8 by omega]

/-- The bytes of a little-endian 32-bit field. -/
theorem extract_le32 (b0 b1 b2 b3 : Byte) :
    (le32 b0 b1 b2 b3).extractLsb' 0 8 = b0 ∧ (le32 b0 b1 b2 b3).extractLsb' 8 8 = b1 ∧
      (le32 b0 b1 b2 b3).extractLsb' 16 8 = b2 ∧ (le32 b0 b1 b2 b3).extractLsb' 24 8 = b3 := by
  unfold le32
  refine ⟨?_, ?_, ?_, ?_⟩ <;>
  · apply BitVec.eq_of_getLsbD_eq
    intro i hi
    simp only [BitVec.getLsbD_append, BitVec.getLsbD_extractLsb', hi]
    simp (disch := omega) only [if_pos, if_neg, decide_true, Bool.true_and]
    congr 1
    all_goals omega

/-- The bytes of a little-endian 16-bit field. -/
theorem extract_le16 (b0 b1 : Byte) :
    (le16 b0 b1).extractLsb' 0 8 = b0 ∧ (le16 b0 b1).extractLsb' 8 8 = b1 := by
  unfold le16
  refine ⟨?_, ?_⟩ <;>
  · apply BitVec.eq_of_getLsbD_eq
    intro i hi
    simp only [BitVec.getLsbD_append, BitVec.getLsbD_extractLsb', hi]
    simp (disch := omega) only [if_pos, if_neg, decide_true, Bool.true_and]
    congr 1
    all_goals omega

@[simp] theorem bytes32_length (v : Word) : (bytes32 v).length = 4 := rfl
@[simp] theorem bytes16_length (v : BitVec 16) : (bytes16 v).length = 2 := rfl

/-- A shape builds from exactly its own number of bytes, and leaves none over. -/
theorem Form.build_of_length (form : Form) (bs : List Byte) (h : bs.length = form.operandBytes) :
    ∃ i, form.build bs = some (i, []) := by
  cases form <;> simp only [Form.operandBytes] at h <;>
  · rcases bs with _ | ⟨b0, _ | ⟨b1, _ | ⟨b2, _ | ⟨b3, _ | ⟨b4, _ | ⟨b5, bs⟩⟩⟩⟩⟩⟩ <;> simp at h <;>
    exact ⟨_, rfl⟩

/-- Bytes after those a shape needs are left over. -/
theorem Form.build_append (form : Form) (bs rest : List Byte) {i : Instr} (h : form.build bs = some (i, [])) :
    form.build (bs ++ rest) = some (i, rest) := by
  cases form <;>
  · rcases bs with _ | ⟨b0, _ | ⟨b1, _ | ⟨b2, _ | ⟨b3, _ | ⟨b4, _ | ⟨b5, bs⟩⟩⟩⟩⟩⟩ <;>
    simp_all [Form.build]

end Sys2Proof
end

