-- ==== Sys2Proof/Laws/Memory.lean ====
section
/-! SUPPORT. The laws of memory: what a read after a write gives, that writes keep the canonical form, and that equal
readings are equal memories. -/

namespace Sys2Proof.Machine

@[simp] theorem Memory.read_nil (a : Nat) : Memory.read [] a = Memory.unlisted := rfl

theorem Memory.read_cons (c : Host.Cell) (m : Memory) (a : Nat) :
    Memory.read (c :: m) a = if c.1 = a then c.2 else Memory.read m a := rfl

theorem Memory.wfFrom_cons (lo : Nat) (c : Host.Cell) (m : Memory) :
    Memory.wfFrom lo (c :: m) = true ↔
      lo ≤ c.1 ∧ c.1 < 2 ^ 32 ∧ c.2 ≠ Memory.unlisted ∧ Memory.wfFrom (c.1 + 1) m = true := by
  simp [Memory.wfFrom, and_assoc]

theorem Memory.wfFrom_mono {lo lo' : Nat} {m : Memory} (h : Memory.wfFrom lo m = true) (hle : lo' ≤ lo) :
    Memory.wfFrom lo' m = true := by
  cases m with
  | nil => rfl
  | cons c m =>
    rw [Memory.wfFrom_cons] at h ⊢
    exact ⟨hle.trans h.1, h.2⟩

/-- Below the lowest listed address every address reads as unlisted. -/
theorem Memory.read_below {m : Memory} {lo a : Nat} (h : Memory.wfFrom lo m = true) (ha : a < lo) :
    m.read a = Memory.unlisted := by
  induction m generalizing lo with
  | nil => rfl
  | cons c m ih =>
    rw [Memory.wfFrom_cons] at h
    rw [Memory.read_cons, if_neg (by omega)]
    exact ih h.2.2.2 (by omega)

/-- A write leaves every other address as it was. -/
theorem Memory.read_write_other (m : Memory) {a x : Nat} (b : Byte) (hx : x ≠ a) :
    (m.write a b).read x = m.read x := by
  induction m with
  | nil =>
    unfold Memory.write
    split <;> simp [Memory.read_cons, Ne.symm hx]
  | cons c m ih =>
    unfold Memory.write
    split
    · simp [Memory.read_cons, ih]
    · split
      · rename_i h
        split <;> simp [Memory.read_cons, h, Ne.symm hx]
      · split <;> simp [Memory.read_cons, Ne.symm hx]

theorem Memory.read_write_same_from {m : Memory} {lo : Nat} (a : Nat) (b : Byte) (h : Memory.wfFrom lo m = true) :
    (m.write a b).read a = b := by
  induction m generalizing lo with
  | nil =>
    unfold Memory.write
    split
    · simp [*]
    · simp [Memory.read_cons]
  | cons c m ih =>
    rw [Memory.wfFrom_cons] at h
    unfold Memory.write
    split
    · rename_i hlt
      rw [Memory.read_cons, if_neg (by omega)]
      exact ih h.2.2.2
    · split
      · rename_i heq
        split
        · rename_i hb
          rw [hb]
          exact Memory.read_below h.2.2.2 (by omega)
        · simp [Memory.read_cons]
      · split
        · rename_i hb
          rw [hb, Memory.read_cons, if_neg (by omega)]
          exact Memory.read_below h.2.2.2 (by omega)
        · simp [Memory.read_cons]

/-- A read after a write to the same address gives the value written. -/
theorem Memory.read_write_same {m : Memory} (a : Nat) (b : Byte) (h : m.wf = true) : (m.write a b).read a = b :=
  Memory.read_write_same_from a b h

theorem Memory.write_wfFrom {m : Memory} {lo a : Nat} (b : Byte) (h : Memory.wfFrom lo m = true) (hlo : lo ≤ a)
    (ha : a < 2 ^ 32) : Memory.wfFrom lo (m.write a b) = true := by
  induction m generalizing lo with
  | nil =>
    unfold Memory.write
    split
    · rfl
    · rw [Memory.wfFrom_cons]
      exact ⟨hlo, ha, by assumption, rfl⟩
  | cons c m ih =>
    have h' := h
    rw [Memory.wfFrom_cons] at h
    unfold Memory.write
    split
    · rw [Memory.wfFrom_cons]
      exact ⟨h.1, h.2.1, h.2.2.1, ih h.2.2.2 (by omega)⟩
    · split
      · split
        · exact Memory.wfFrom_mono h.2.2.2 (by omega)
        · rw [Memory.wfFrom_cons]
          rename_i heq hb
          exact ⟨hlo, ha, hb, heq ▸ h.2.2.2⟩
      · split
        · exact h'
        · rename_i hb
          rw [Memory.wfFrom_cons, Memory.wfFrom_cons]
          exact ⟨hlo, ha, hb, by simp only; omega, h.2⟩

/-- A write keeps the canonical form. -/
theorem Memory.write_wf {m : Memory} (a : Word) (b : Byte) (h : m.wf = true) : (m.write a.toNat b).wf = true :=
  Memory.write_wfFrom b h (Nat.zero_le _) a.isLt

/-- A write of several bytes keeps the canonical form. -/
theorem Memory.writeBytes_wf {m : Memory} (a : Word) (bs : List Byte) (h : m.wf = true) :
    (m.writeBytes a bs).wf = true := by
  induction bs generalizing m a with
  | nil => exact h
  | cons b bs ih => exact ih _ (Memory.write_wf a b h)

/-- A write of several bytes leaves every address outside them as it was. -/
theorem Memory.read_writeBytes_other {m : Memory} {a x : Word} {bs : List Byte}
    (hx : ∀ k : Nat, k < bs.length → x ≠ a + BitVec.ofNat 32 k) : (m.writeBytes a bs).read x.toNat = m.read x.toNat := by
  induction bs generalizing m a with
  | nil => rfl
  | cons b bs ih =>
    have h0 : x ≠ a := by simpa using hx 0 (by simp)
    have hrest : ∀ k : Nat, k < bs.length → x ≠ a + 1#32 + BitVec.ofNat 32 k := by
      intro k hk
      have := hx (k + 1) (by simpa using hk)
      rw [BitVec.add_assoc, BitVec.add_comm 1#32, ← BitVec.ofNat_add]
      exact this
    rw [Memory.writeBytes, ih hrest]
    exact Memory.read_write_other m b (fun h => h0 (BitVec.eq_of_toNat_eq h))

/-- Each byte written is read back. -/
theorem Memory.read_writeBytes_same {m : Memory} (a : Word) (bs : List Byte) (hm : m.wf = true)
    (hlen : bs.length ≤ 2 ^ 32) {k : Nat} (hk : k < bs.length) :
    (m.writeBytes a bs).read (a + BitVec.ofNat 32 k).toNat = bs[k] := by
  induction bs generalizing m a k with
  | nil => simp at hk
  | cons b bs ih =>
    simp only [List.length_cons] at hlen hk
    cases k with
    | zero =>
      have hother : ∀ j : Nat, j < bs.length → a ≠ a + 1#32 + BitVec.ofNat 32 j := by
        intro j hj heq
        have h1 : (a + 1#32 + BitVec.ofNat 32 j).toNat = a.toNat := by rw [← heq]
        simp [BitVec.toNat_add] at h1
        have := a.isLt
        omega
      have h0 : a + BitVec.ofNat 32 0 = a := by simp
      rw [h0, Memory.writeBytes, Memory.read_writeBytes_other hother]
      simpa using Memory.read_write_same a.toNat b hm
    | succ k =>
      have h1 : a + BitVec.ofNat 32 (k + 1) = a + 1#32 + BitVec.ofNat 32 k := by
        rw [BitVec.add_assoc, BitVec.add_comm 1#32, ← BitVec.ofNat_add]
      rw [h1, Memory.writeBytes]
      simpa using ih (m := m.write a.toNat b) (a + 1#32) (Memory.write_wf a b hm) (by omega) (by omega)

end Sys2Proof.Machine
end

