-- ==== Sys2Proof/Laws/State.lean ====
section
/-! SUPPORT. One lemma per field per record update of the state, so that no proof unfolds an update. -/

namespace Sys2Proof.Machine

/-! ### `State.withRegs` -/

@[simp] theorem State.withRegs_regs (s : State) (v : Regs) : (s.withRegs v).regs = v := rfl
@[simp] theorem State.withRegs_pc (s : State) (v : Regs) : (s.withRegs v).pc = s.pc := rfl
@[simp] theorem State.withRegs_flags (s : State) (v : Regs) : (s.withRegs v).flags = s.flags := rfl
@[simp] theorem State.withRegs_mode (s : State) (v : Regs) : (s.withRegs v).mode = s.mode := rfl
@[simp] theorem State.withRegs_fault (s : State) (v : Regs) : (s.withRegs v).fault = s.fault := rfl
@[simp] theorem State.withRegs_faultInfo (s : State) (v : Regs) : (s.withRegs v).faultInfo = s.faultInfo := rfl
@[simp] theorem State.withRegs_mem (s : State) (v : Regs) : (s.withRegs v).mem = s.mem := rfl
@[simp] theorem State.withRegs_mapped (s : State) (v : Regs) : (s.withRegs v).mapped = s.mapped := rfl
@[simp] theorem State.withRegs_irq (s : State) (v : Regs) : (s.withRegs v).irq = s.irq := rfl
@[simp] theorem State.withRegs_hookCalls (s : State) (v : Regs) : (s.withRegs v).hookCalls = s.hookCalls := rfl
@[simp] theorem State.withRegs_resets (s : State) (v : Regs) : (s.withRegs v).resets = s.resets := rfl

/-! ### `State.withPc` -/

@[simp] theorem State.withPc_regs (s : State) (v : Word) : (s.withPc v).regs = s.regs := rfl
@[simp] theorem State.withPc_pc (s : State) (v : Word) : (s.withPc v).pc = v := rfl
@[simp] theorem State.withPc_flags (s : State) (v : Word) : (s.withPc v).flags = s.flags := rfl
@[simp] theorem State.withPc_mode (s : State) (v : Word) : (s.withPc v).mode = s.mode := rfl
@[simp] theorem State.withPc_fault (s : State) (v : Word) : (s.withPc v).fault = s.fault := rfl
@[simp] theorem State.withPc_faultInfo (s : State) (v : Word) : (s.withPc v).faultInfo = s.faultInfo := rfl
@[simp] theorem State.withPc_mem (s : State) (v : Word) : (s.withPc v).mem = s.mem := rfl
@[simp] theorem State.withPc_mapped (s : State) (v : Word) : (s.withPc v).mapped = s.mapped := rfl
@[simp] theorem State.withPc_irq (s : State) (v : Word) : (s.withPc v).irq = s.irq := rfl
@[simp] theorem State.withPc_hookCalls (s : State) (v : Word) : (s.withPc v).hookCalls = s.hookCalls := rfl
@[simp] theorem State.withPc_resets (s : State) (v : Word) : (s.withPc v).resets = s.resets := rfl

/-! ### `State.withFlags` -/

@[simp] theorem State.withFlags_regs (s : State) (v : Flags) : (s.withFlags v).regs = s.regs := rfl
@[simp] theorem State.withFlags_pc (s : State) (v : Flags) : (s.withFlags v).pc = s.pc := rfl
@[simp] theorem State.withFlags_flags (s : State) (v : Flags) : (s.withFlags v).flags = v := rfl
@[simp] theorem State.withFlags_mode (s : State) (v : Flags) : (s.withFlags v).mode = s.mode := rfl
@[simp] theorem State.withFlags_fault (s : State) (v : Flags) : (s.withFlags v).fault = s.fault := rfl
@[simp] theorem State.withFlags_faultInfo (s : State) (v : Flags) : (s.withFlags v).faultInfo = s.faultInfo := rfl
@[simp] theorem State.withFlags_mem (s : State) (v : Flags) : (s.withFlags v).mem = s.mem := rfl
@[simp] theorem State.withFlags_mapped (s : State) (v : Flags) : (s.withFlags v).mapped = s.mapped := rfl
@[simp] theorem State.withFlags_irq (s : State) (v : Flags) : (s.withFlags v).irq = s.irq := rfl
@[simp] theorem State.withFlags_hookCalls (s : State) (v : Flags) : (s.withFlags v).hookCalls = s.hookCalls := rfl
@[simp] theorem State.withFlags_resets (s : State) (v : Flags) : (s.withFlags v).resets = s.resets := rfl

/-! ### `State.withMode` -/

@[simp] theorem State.withMode_regs (s : State) (v : Mode) : (s.withMode v).regs = s.regs := rfl
@[simp] theorem State.withMode_pc (s : State) (v : Mode) : (s.withMode v).pc = s.pc := rfl
@[simp] theorem State.withMode_flags (s : State) (v : Mode) : (s.withMode v).flags = s.flags := rfl
@[simp] theorem State.withMode_mode (s : State) (v : Mode) : (s.withMode v).mode = v := rfl
@[simp] theorem State.withMode_fault (s : State) (v : Mode) : (s.withMode v).fault = s.fault := rfl
@[simp] theorem State.withMode_faultInfo (s : State) (v : Mode) : (s.withMode v).faultInfo = s.faultInfo := rfl
@[simp] theorem State.withMode_mem (s : State) (v : Mode) : (s.withMode v).mem = s.mem := rfl
@[simp] theorem State.withMode_mapped (s : State) (v : Mode) : (s.withMode v).mapped = s.mapped := rfl
@[simp] theorem State.withMode_irq (s : State) (v : Mode) : (s.withMode v).irq = s.irq := rfl
@[simp] theorem State.withMode_hookCalls (s : State) (v : Mode) : (s.withMode v).hookCalls = s.hookCalls := rfl
@[simp] theorem State.withMode_resets (s : State) (v : Mode) : (s.withMode v).resets = s.resets := rfl

/-! ### `State.withFault` -/

@[simp] theorem State.withFault_regs (s : State) (v : Cause) (w : Word) : (s.withFault v w).regs = s.regs := rfl
@[simp] theorem State.withFault_pc (s : State) (v : Cause) (w : Word) : (s.withFault v w).pc = s.pc := rfl
@[simp] theorem State.withFault_flags (s : State) (v : Cause) (w : Word) : (s.withFault v w).flags = s.flags := rfl
@[simp] theorem State.withFault_mode (s : State) (v : Cause) (w : Word) : (s.withFault v w).mode = s.mode := rfl
@[simp] theorem State.withFault_fault (s : State) (v : Cause) (w : Word) : (s.withFault v w).fault = v := rfl
@[simp] theorem State.withFault_faultInfo (s : State) (v : Cause) (w : Word) : (s.withFault v w).faultInfo = w := rfl
@[simp] theorem State.withFault_mem (s : State) (v : Cause) (w : Word) : (s.withFault v w).mem = s.mem := rfl
@[simp] theorem State.withFault_mapped (s : State) (v : Cause) (w : Word) : (s.withFault v w).mapped = s.mapped := rfl
@[simp] theorem State.withFault_irq (s : State) (v : Cause) (w : Word) : (s.withFault v w).irq = s.irq := rfl
@[simp] theorem State.withFault_hookCalls (s : State) (v : Cause) (w : Word) : (s.withFault v w).hookCalls = s.hookCalls := rfl
@[simp] theorem State.withFault_resets (s : State) (v : Cause) (w : Word) : (s.withFault v w).resets = s.resets := rfl

/-! ### `State.withMem` -/

@[simp] theorem State.withMem_regs (s : State) (v : Memory) : (s.withMem v).regs = s.regs := rfl
@[simp] theorem State.withMem_pc (s : State) (v : Memory) : (s.withMem v).pc = s.pc := rfl
@[simp] theorem State.withMem_flags (s : State) (v : Memory) : (s.withMem v).flags = s.flags := rfl
@[simp] theorem State.withMem_mode (s : State) (v : Memory) : (s.withMem v).mode = s.mode := rfl
@[simp] theorem State.withMem_fault (s : State) (v : Memory) : (s.withMem v).fault = s.fault := rfl
@[simp] theorem State.withMem_faultInfo (s : State) (v : Memory) : (s.withMem v).faultInfo = s.faultInfo := rfl
@[simp] theorem State.withMem_mem (s : State) (v : Memory) : (s.withMem v).mem = v := rfl
@[simp] theorem State.withMem_mapped (s : State) (v : Memory) : (s.withMem v).mapped = s.mapped := rfl
@[simp] theorem State.withMem_irq (s : State) (v : Memory) : (s.withMem v).irq = s.irq := rfl
@[simp] theorem State.withMem_hookCalls (s : State) (v : Memory) : (s.withMem v).hookCalls = s.hookCalls := rfl
@[simp] theorem State.withMem_resets (s : State) (v : Memory) : (s.withMem v).resets = s.resets := rfl

/-! ### `State.withMapped` -/

@[simp] theorem State.withMapped_regs (s : State) (v : List Region) : (s.withMapped v).regs = s.regs := rfl
@[simp] theorem State.withMapped_pc (s : State) (v : List Region) : (s.withMapped v).pc = s.pc := rfl
@[simp] theorem State.withMapped_flags (s : State) (v : List Region) : (s.withMapped v).flags = s.flags := rfl
@[simp] theorem State.withMapped_mode (s : State) (v : List Region) : (s.withMapped v).mode = s.mode := rfl
@[simp] theorem State.withMapped_fault (s : State) (v : List Region) : (s.withMapped v).fault = s.fault := rfl
@[simp] theorem State.withMapped_faultInfo (s : State) (v : List Region) : (s.withMapped v).faultInfo = s.faultInfo := rfl
@[simp] theorem State.withMapped_mem (s : State) (v : List Region) : (s.withMapped v).mem = s.mem := rfl
@[simp] theorem State.withMapped_mapped (s : State) (v : List Region) : (s.withMapped v).mapped = v := rfl
@[simp] theorem State.withMapped_irq (s : State) (v : List Region) : (s.withMapped v).irq = s.irq := rfl
@[simp] theorem State.withMapped_hookCalls (s : State) (v : List Region) : (s.withMapped v).hookCalls = s.hookCalls := rfl
@[simp] theorem State.withMapped_resets (s : State) (v : List Region) : (s.withMapped v).resets = s.resets := rfl

/-! ### `State.withIrq` -/

@[simp] theorem State.withIrq_regs (s : State) (v : Option Byte) : (s.withIrq v).regs = s.regs := rfl
@[simp] theorem State.withIrq_pc (s : State) (v : Option Byte) : (s.withIrq v).pc = s.pc := rfl
@[simp] theorem State.withIrq_flags (s : State) (v : Option Byte) : (s.withIrq v).flags = s.flags := rfl
@[simp] theorem State.withIrq_mode (s : State) (v : Option Byte) : (s.withIrq v).mode = s.mode := rfl
@[simp] theorem State.withIrq_fault (s : State) (v : Option Byte) : (s.withIrq v).fault = s.fault := rfl
@[simp] theorem State.withIrq_faultInfo (s : State) (v : Option Byte) : (s.withIrq v).faultInfo = s.faultInfo := rfl
@[simp] theorem State.withIrq_mem (s : State) (v : Option Byte) : (s.withIrq v).mem = s.mem := rfl
@[simp] theorem State.withIrq_mapped (s : State) (v : Option Byte) : (s.withIrq v).mapped = s.mapped := rfl
@[simp] theorem State.withIrq_irq (s : State) (v : Option Byte) : (s.withIrq v).irq = v := rfl
@[simp] theorem State.withIrq_hookCalls (s : State) (v : Option Byte) : (s.withIrq v).hookCalls = s.hookCalls := rfl
@[simp] theorem State.withIrq_resets (s : State) (v : Option Byte) : (s.withIrq v).resets = s.resets := rfl

/-! ### `State.withHookCalls` -/

@[simp] theorem State.withHookCalls_regs (s : State) (v : List Byte) : (s.withHookCalls v).regs = s.regs := rfl
@[simp] theorem State.withHookCalls_pc (s : State) (v : List Byte) : (s.withHookCalls v).pc = s.pc := rfl
@[simp] theorem State.withHookCalls_flags (s : State) (v : List Byte) : (s.withHookCalls v).flags = s.flags := rfl
@[simp] theorem State.withHookCalls_mode (s : State) (v : List Byte) : (s.withHookCalls v).mode = s.mode := rfl
@[simp] theorem State.withHookCalls_fault (s : State) (v : List Byte) : (s.withHookCalls v).fault = s.fault := rfl
@[simp] theorem State.withHookCalls_faultInfo (s : State) (v : List Byte) : (s.withHookCalls v).faultInfo = s.faultInfo := rfl
@[simp] theorem State.withHookCalls_mem (s : State) (v : List Byte) : (s.withHookCalls v).mem = s.mem := rfl
@[simp] theorem State.withHookCalls_mapped (s : State) (v : List Byte) : (s.withHookCalls v).mapped = s.mapped := rfl
@[simp] theorem State.withHookCalls_irq (s : State) (v : List Byte) : (s.withHookCalls v).irq = s.irq := rfl
@[simp] theorem State.withHookCalls_hookCalls (s : State) (v : List Byte) : (s.withHookCalls v).hookCalls = v := rfl
@[simp] theorem State.withHookCalls_resets (s : State) (v : List Byte) : (s.withHookCalls v).resets = s.resets := rfl

/-! ### `State.withResets` -/

@[simp] theorem State.withResets_regs (s : State) (v : Nat) : (s.withResets v).regs = s.regs := rfl
@[simp] theorem State.withResets_pc (s : State) (v : Nat) : (s.withResets v).pc = s.pc := rfl
@[simp] theorem State.withResets_flags (s : State) (v : Nat) : (s.withResets v).flags = s.flags := rfl
@[simp] theorem State.withResets_mode (s : State) (v : Nat) : (s.withResets v).mode = s.mode := rfl
@[simp] theorem State.withResets_fault (s : State) (v : Nat) : (s.withResets v).fault = s.fault := rfl
@[simp] theorem State.withResets_faultInfo (s : State) (v : Nat) : (s.withResets v).faultInfo = s.faultInfo := rfl
@[simp] theorem State.withResets_mem (s : State) (v : Nat) : (s.withResets v).mem = s.mem := rfl
@[simp] theorem State.withResets_mapped (s : State) (v : Nat) : (s.withResets v).mapped = s.mapped := rfl
@[simp] theorem State.withResets_irq (s : State) (v : Nat) : (s.withResets v).irq = s.irq := rfl
@[simp] theorem State.withResets_hookCalls (s : State) (v : Nat) : (s.withResets v).hookCalls = s.hookCalls := rfl
@[simp] theorem State.withResets_resets (s : State) (v : Nat) : (s.withResets v).resets = v := rfl

end Sys2Proof.Machine
end

