-- ==== Sys2Proof/Laws/Ops.lean ====
section
/-! SUPPORT. For each shared operation, what it can do, said once. -/

namespace Sys2Proof.Machine

/-! ### Registers -/

@[simp] theorem State.reg_zero (s : State) : s.reg .zero = 0#32 := rfl
@[simp] theorem State.reg_pc (s : State) : s.reg .pc = s.pc := rfl
@[simp] theorem State.reg_sp (s : State) : s.reg .sp = s.regs.sp := rfl

/-- Reading a register after a write: the written register holds the value, register 7 reads 0, every other register
is as before. -/
theorem State.reg_writeReg (s : State) (d q : Reg) (v : Word) :
    (s.writeReg d v).reg q = if q = d then (if d = .zero then 0#32 else v) else s.reg q := by
  cases d <;> cases q <;> rfl

theorem State.reg_writeReg_other (s : State) {d q : Reg} (v : Word) (h : q ≠ d) : (s.writeReg d v).reg q = s.reg q := by
  rw [State.reg_writeReg, if_neg h]

@[simp] theorem State.writeReg_flags (s : State) (q : Reg) (v : Word) : (s.writeReg q v).flags = s.flags := by
  cases q <;> rfl
@[simp] theorem State.writeReg_mode (s : State) (q : Reg) (v : Word) : (s.writeReg q v).mode = s.mode := by
  cases q <;> rfl
@[simp] theorem State.writeReg_fault (s : State) (q : Reg) (v : Word) : (s.writeReg q v).fault = s.fault := by
  cases q <;> rfl
@[simp] theorem State.writeReg_faultInfo (s : State) (q : Reg) (v : Word) : (s.writeReg q v).faultInfo = s.faultInfo := by
  cases q <;> rfl
@[simp] theorem State.writeReg_mem (s : State) (q : Reg) (v : Word) : (s.writeReg q v).mem = s.mem := by
  cases q <;> rfl
@[simp] theorem State.writeReg_mapped (s : State) (q : Reg) (v : Word) : (s.writeReg q v).mapped = s.mapped := by
  cases q <;> rfl
@[simp] theorem State.writeReg_irq (s : State) (q : Reg) (v : Word) : (s.writeReg q v).irq = s.irq := by
  cases q <;> rfl
@[simp] theorem State.writeReg_hookCalls (s : State) (q : Reg) (v : Word) : (s.writeReg q v).hookCalls = s.hookCalls := by
  cases q <;> rfl
@[simp] theorem State.writeReg_resets (s : State) (q : Reg) (v : Word) : (s.writeReg q v).resets = s.resets := by
  cases q <;> rfl

@[simp] theorem State.writeReg_zero (s : State) (v : Word) : s.writeReg .zero v = s := rfl
@[simp] theorem State.writeReg_pc (s : State) (v : Word) : s.writeReg .pc v = s.withPc v := rfl

@[simp] theorem State.reg_withFlags (s : State) (f : Flags) (q : Reg) : (s.withFlags f).reg q = s.reg q := by
  cases q <;> rfl
@[simp] theorem State.reg_withMode (s : State) (m : Mode) (q : Reg) : (s.withMode m).reg q = s.reg q := by
  cases q <;> rfl
@[simp] theorem State.reg_withMem (s : State) (m : Memory) (q : Reg) : (s.withMem m).reg q = s.reg q := by
  cases q <;> rfl
@[simp] theorem State.reg_withIrq (s : State) (r : Option Byte) (q : Reg) : (s.withIrq r).reg q = s.reg q := by
  cases q <;> rfl
@[simp] theorem State.reg_clearFlags (s : State) (q : Reg) : s.clearFlags.reg q = s.reg q := by
  cases q <;> rfl
@[simp] theorem State.reg_raise (s : State) (c : Cause) (w : Word) (q : Reg) : (s.raise c w).reg q = s.reg q := by
  cases q <;> rfl
theorem State.reg_withPc (s : State) (pc : Word) (q : Reg) :
    (s.withPc pc).reg q = if q = .pc then pc else s.reg q := by
  cases q <;> rfl

/-! ### Faults -/

@[simp] theorem State.raise_regs (s : State) (c : Cause) (w : Word) : (s.raise c w).regs = s.regs := rfl
@[simp] theorem State.raise_pc (s : State) (c : Cause) (w : Word) : (s.raise c w).pc = s.pc := rfl
@[simp] theorem State.raise_flags (s : State) (c : Cause) (w : Word) : (s.raise c w).flags = s.flags := rfl
@[simp] theorem State.raise_mem (s : State) (c : Cause) (w : Word) : (s.raise c w).mem = s.mem := rfl
@[simp] theorem State.raise_mapped (s : State) (c : Cause) (w : Word) : (s.raise c w).mapped = s.mapped := rfl
@[simp] theorem State.raise_irq (s : State) (c : Cause) (w : Word) : (s.raise c w).irq = s.irq := rfl
@[simp] theorem State.raise_hookCalls (s : State) (c : Cause) (w : Word) : (s.raise c w).hookCalls = s.hookCalls := rfl
@[simp] theorem State.raise_resets (s : State) (c : Cause) (w : Word) : (s.raise c w).resets = s.resets := rfl
@[simp] theorem State.raise_mode (s : State) (c : Cause) (w : Word) : (s.raise c w).mode = .halted := rfl
@[simp] theorem State.raise_fault (s : State) (c : Cause) (w : Word) : (s.raise c w).fault = c := rfl
@[simp] theorem State.raise_faultInfo (s : State) (c : Cause) (w : Word) : (s.raise c w).faultInfo = w := rfl

@[simp] theorem settle_ok (t : State) : settle (.ok t) = .next t := rfl
@[simp] theorem settle_error (t : State) : settle (.error t) = .next t := rfl

/-- A settled instruction always has a next state. -/
theorem settle_next (r : Except State State) : ∃ t, settle r = .next t ∧ (r = .ok t ∨ r = .error t) := by
  cases r with
  | ok t => exact ⟨t, rfl, .inl rfl⟩
  | error t => exact ⟨t, rfl, .inr rfl⟩

@[simp] theorem except_map_ok {ε α β : Type} (f : α → β) (a : α) : Except.map f (.ok a : Except ε α) = .ok (f a) := rfl
@[simp] theorem except_map_error {ε α β : Type} (f : α → β) (e : ε) :
    Except.map f (.error e : Except ε α) = .error e := rfl

/-! ### The memory port -/

theorem State.isMapped_congr {s t : State} (h : t.mapped = s.mapped) (a : Word) : t.isMapped a = s.isMapped a := by
  simp only [State.isMapped, h]

theorem State.portOk_congr {s t : State} (h : t.mapped = s.mapped) (a : Word) (n : Nat) : t.portOk a n = s.portOk a n := by
  simp only [State.portOk, State.isMapped_congr h]

theorem State.byteAt_congr {s t : State} (h : t.mem = s.mem) (a : Word) : t.byteAt a = s.byteAt a := by
  simp only [State.byteAt, h]

theorem State.portOk_iff (s : State) (a : Word) (n : Nat) :
    s.portOk a n = true ↔ ∀ k : Nat, k < n → s.isMapped (a + BitVec.ofNat 32 k) = true := by
  simp [State.portOk]

theorem State.portOk_one (s : State) (a : Word) : s.portOk a 1 = s.isMapped a := by
  simp [State.portOk, List.range_succ]

/-- An access that fails at some width fails at every larger width. -/
theorem State.portOk_false_mono {s : State} {a : Word} {n n' : Nat} (h : s.portOk a n = false) (hle : n ≤ n') :
    s.portOk a n' = false := by
  rw [← Bool.not_eq_true, State.portOk_iff] at h ⊢
  exact fun h' => h fun k hk => h' k (by omega)

/-- `MemRead(addr, 1)`: the byte, or the fault. -/
theorem State.memRead8_eq (s : State) (a : Word) :
    s.memRead8 a = if s.isMapped a then .ok (s.byteAt a) else .error (s.raise .unmappedAddress a) := by
  unfold State.memRead8 State.getMem8
  rw [State.portOk_one]
  cases s.isMapped a <;> rfl

theorem State.memRead16_eq (s : State) (a : Word) :
    s.memRead16 a = if s.portOk a 2 then .ok (le16 (s.byteAt a) (s.byteAt (a + 1#32)))
      else .error (s.raise .unmappedAddress a) := by
  unfold State.memRead16 State.getMem16
  cases s.portOk a 2 <;> rfl

theorem State.memRead32_eq (s : State) (a : Word) :
    s.memRead32 a = if s.portOk a 4 then
        .ok (le32 (s.byteAt a) (s.byteAt (a + 1#32)) (s.byteAt (a + 2#32)) (s.byteAt (a + 3#32)))
      else .error (s.raise .unmappedAddress a) := by
  unfold State.memRead32 State.getMem32
  cases s.portOk a 4 <;> rfl

/-- `MemWrite`: all bytes written and nothing else changed, or the fault and no byte written. -/
theorem State.orUnmapped_setBytes (s : State) (a : Word) (bs : List Byte) :
    s.orUnmapped a (s.setBytes a bs) =
      if s.portOk a bs.length then .ok (s.withMem (s.mem.writeBytes a bs)) else .error (s.raise .unmappedAddress a) := by
  unfold State.setBytes
  cases s.portOk a bs.length <;> rfl

theorem State.memWrite8_eq (s : State) (a : Word) (v : Byte) :
    s.memWrite8 a v = if s.portOk a 1 then .ok (s.withMem (s.mem.writeBytes a [v]))
      else .error (s.raise .unmappedAddress a) :=
  s.orUnmapped_setBytes a [v]

theorem State.memWrite16_eq (s : State) (a : Word) (v : BitVec 16) :
    s.memWrite16 a v = if s.portOk a 2 then .ok (s.withMem (s.mem.writeBytes a (bytes16 v)))
      else .error (s.raise .unmappedAddress a) :=
  s.orUnmapped_setBytes a (bytes16 v)

theorem State.memWrite32_eq (s : State) (a : Word) (v : Word) :
    s.memWrite32 a v = if s.portOk a 4 then .ok (s.withMem (s.mem.writeBytes a (bytes32 v)))
      else .error (s.raise .unmappedAddress a) :=
  s.orUnmapped_setBytes a (bytes32 v)

/-! ### The stack -/

@[simp] theorem State.advanceSp_sp (s : State) (w : Word) : (s.advanceSp w).regs.sp = s.regs.sp + w := by
  change s.regs.sp + 1#32 * w = _
  rw [BitVec.one_mul]

@[simp] theorem State.retreatSp_sp (s : State) (w : Word) : (s.retreatSp w).regs.sp = s.regs.sp - w := by
  change s.regs.sp - 1#32 * w = _
  rw [BitVec.one_mul]

/-- `push(4, v)`: SP moved and four bytes written, or the fault with SP moved and no byte written. -/
theorem State.push32_eq (s : State) (v : Word) :
    s.push32 v = if s.portOk (s.regs.sp + 4#32) 4 then
        .ok ((s.advanceSp 4#32).withMem (s.mem.writeBytes (s.regs.sp + 4#32) (bytes32 v)))
      else .error ((s.advanceSp 4#32).raise .unmappedAddress (s.regs.sp + 4#32)) := by
  have hp : (s.advanceSp 4#32).portOk (s.regs.sp + 4#32) 4 = s.portOk (s.regs.sp + 4#32) 4 :=
    State.portOk_congr (by simp [State.advanceSp]) _ _
  simp only [State.push32, State.reg_sp, State.advanceSp_sp, State.memWrite32_eq, hp]
  rfl

/-- `push(1, b)`: SP moved and one byte written, or the fault with SP moved and no byte written. -/
theorem State.push8_eq (s : State) (b : Byte) :
    s.push8 b = if s.portOk (s.regs.sp + 1#32) 1 then
        .ok ((s.advanceSp 1#32).withMem (s.mem.writeBytes (s.regs.sp + 1#32) [b]))
      else .error ((s.advanceSp 1#32).raise .unmappedAddress (s.regs.sp + 1#32)) := by
  have hp : (s.advanceSp 1#32).portOk (s.regs.sp + 1#32) 1 = s.portOk (s.regs.sp + 1#32) 1 :=
    State.portOk_congr (by simp [State.advanceSp]) _ _
  simp only [State.push8, State.reg_sp, State.advanceSp_sp, State.memWrite8_eq, hp]
  rfl

/-- `pop(4)`: the word and SP moved, or the fault and SP not moved. -/
theorem State.pop32_eq (s : State) :
    s.pop32 = if s.portOk s.regs.sp 4 then
        .ok (le32 (s.byteAt s.regs.sp) (s.byteAt (s.regs.sp + 1#32)) (s.byteAt (s.regs.sp + 2#32))
          (s.byteAt (s.regs.sp + 3#32)), s.retreatSp 4#32)
      else .error (s.raise .unmappedAddress s.regs.sp) := by
  simp only [State.pop32, State.reg_sp, State.memRead32_eq]
  split <;> rfl

/-- `pop(1)`: the byte and SP moved, or the fault and SP not moved. -/
theorem State.pop8_eq (s : State) :
    s.pop8 = if s.isMapped s.regs.sp then .ok (s.byteAt s.regs.sp, s.retreatSp 1#32)
      else .error (s.raise .unmappedAddress s.regs.sp) := by
  simp only [State.pop8, State.reg_sp, State.memRead8_eq]
  split <;> rfl

/-! ### The interrupt hook -/

@[simp] theorem State.callHook_mode (s : State) (n : Byte) : (s.callHook n).mode = s.mode := rfl
@[simp] theorem State.callHook_fault (s : State) (n : Byte) : (s.callHook n).fault = s.fault := rfl
@[simp] theorem State.callHook_faultInfo (s : State) (n : Byte) : (s.callHook n).faultInfo = s.faultInfo := rfl
@[simp] theorem State.callHook_mapped (s : State) (n : Byte) : (s.callHook n).mapped = s.mapped := rfl
@[simp] theorem State.callHook_irq (s : State) (n : Byte) : (s.callHook n).irq = s.irq := rfl
@[simp] theorem State.callHook_resets (s : State) (n : Byte) : (s.callHook n).resets = s.resets := rfl
@[simp] theorem State.callHook_hookCalls (s : State) (n : Byte) : (s.callHook n).hookCalls = n :: s.hookCalls := rfl

/-- The hook's writes keep the canonical form of memory. -/
theorem State.hookWrites_wf (s : State) {m : Memory} (ws : List (Word × Byte)) (h : m.wf = true) :
    (s.hookWrites m ws).wf = true := by
  induction ws generalizing m with
  | nil => exact h
  | cons w ws ih =>
    unfold State.hookWrites
    apply ih
    split
    · exact Memory.write_wf w.1 w.2 h
    · exact h

/-- The hook leaves every unmapped byte as it was. -/
theorem State.hookWrites_unmapped (s : State) (m : Memory) (ws : List (Word × Byte)) {a : Word}
    (h : s.isMapped a = false) : (s.hookWrites m ws).read a.toNat = m.read a.toNat := by
  induction ws generalizing m with
  | nil => rfl
  | cons w ws ih =>
    unfold State.hookWrites
    rw [ih]
    split
    · rename_i hw
      apply Memory.read_write_other
      intro heq
      rw [BitVec.eq_of_toNat_eq heq, hw] at h
      cases h
    · rfl

/-- What a byte reads after the hook's writes: a mapped one the last value written to it, an unmapped one as before. -/
theorem State.hookWrites_read (s : State) {m : Memory} (ws : List (Word × Byte)) (h : m.wf = true) (a : Word) :
    (s.hookWrites m ws).read a.toNat =
      if s.isMapped a then (lastWrite a ws).getD (m.read a.toNat) else m.read a.toNat := by
  split
  · rename_i ha
    induction ws generalizing m with
    | nil => rfl
    | cons w ws ih =>
      unfold State.hookWrites lastWrite
      by_cases hw : w.1 = a
      · subst hw
        rw [if_pos ha, ih (Memory.write_wf w.1 w.2 h), Memory.read_write_same _ _ h]
        cases lastWrite w.1 ws <;> simp
      · have hne : a.toNat ≠ w.1.toNat := fun e => hw (BitVec.eq_of_toNat_eq e.symm)
        by_cases hm : s.isMapped w.1 = true
        · rw [if_pos hm, ih (Memory.write_wf w.1 w.2 h), Memory.read_write_other _ _ hne]
          simp [hw]
        · rw [if_neg hm, ih h]
          simp [hw]
  · rename_i ha
    exact s.hookWrites_unmapped m ws (by simpa using ha)

/-- The interrupt check: nothing, or one hook call that withdraws the request. -/
theorem State.serviceIrq_cases (s : State) :
    s.serviceIrq = s ∨ ∃ n, s.irq = some n ∧ s.flags.i = true ∧ s.serviceIrq = (s.withIrq none).callHook n := by
  unfold State.serviceIrq
  cases h : s.irq with
  | none => exact .inl rfl
  | some n =>
    by_cases hi : s.flags.i = true
    · exact .inr ⟨n, rfl, hi, by simp [hi]⟩
    · exact .inl (by simp [hi])

/-- The end of a step: the interrupt check, or nothing after a fault. -/
theorem endOfStep_cases (i : Instr) (t : State) : endOfStep i t = t ∨ endOfStep i t = t.serviceIrq := by
  unfold endOfStep
  split
  · exact .inr rfl
  · exact .inl rfl

end Sys2Proof.Machine
end

