-- ==== Sys2Proof/Laws/Exec.lean ====
section
/-! SUPPORT. What an instruction can do, said once: each shared operation of the meanings, then every instruction. -/

namespace Sys2Proof.Machine

/-- What a completed instruction keeps, whichever it is. -/
structure Kept (s t : State) : Prop where
  mapped : t.mapped = s.mapped
  irq : t.irq = s.irq
  resets : t.resets = s.resets
  fault : t.fault = s.fault
  faultInfo : t.faultInfo = s.faultInfo
  wf : s.mem.wf = true → t.mem.wf = true
  unmapped : ∀ a : Word, s.isMapped a = false → t.byteAt a = s.byteAt a

/-- A cause and its companion value that an instruction running on `s` may latch (60_exceptions R291). -/
def FaultFits (s : State) (cause : Cause) (info : Word) : Prop :=
  match cause with
  | .none => False
  | .unknownOpcode => info.toNat < 256
  | .divideByZero => info = 0#32
  | .unmappedAddress => s.portOk info 4 = false

/-- How an instruction ends: completed, or raised with at most SP written before (60_exceptions R293, R294). -/
def Shape (i : Instr) (s : State) : Except State State → Prop
  | .ok t =>
    Kept s t ∧ (i = .halt ∨ t.mode = s.mode) ∧ (t.hookCalls = s.hookCalls ∨ ∃ n, t.hookCalls = n :: s.hookCalls)
  | .error t =>
    ∃ cause info u, t = State.raise u cause info ∧ (u = s ∨ ∃ w, u = s.advanceSp w) ∧ FaultFits s cause info

/-- Everything but the registers, `pc` and the flags is the same. -/
def SameBut (s t : State) : Prop :=
  t.mapped = s.mapped ∧ t.irq = s.irq ∧ t.resets = s.resets ∧ t.fault = s.fault ∧ t.faultInfo = s.faultInfo ∧
    t.mem = s.mem ∧ t.mode = s.mode ∧ t.hookCalls = s.hookCalls

theorem kept_of_same {s t : State} (h : SameBut s t) : Kept s t := by
  obtain ⟨h1, h2, h3, h4, h5, h6, -, -⟩ := h
  exact ⟨h1, h2, h3, h4, h5, by rw [h6]; exact id, fun a _ => State.byteAt_congr h6 a⟩

theorem shape_of_same {i : Instr} {s t : State} (h : SameBut s t) : Shape i s (.ok t) :=
  ⟨kept_of_same h, .inr h.2.2.2.2.2.2.1, .inl h.2.2.2.2.2.2.2⟩

theorem shape_unmapped (i : Instr) {s : State} {a : Word} {n : Nat} (hn : n ≤ 4) (h : s.portOk a n = false) :
    Shape i s (.error (s.raise .unmappedAddress a)) :=
  ⟨_, _, s, rfl, .inl rfl, State.portOk_false_mono h hn⟩

/-- A byte of an access that the port answers is mapped. -/
theorem State.portOk_ne {s : State} {a x : Word} {n : Nat} (h : s.portOk a n = true) (hx : s.isMapped x = false) :
    ∀ k : Nat, k < n → x ≠ a + BitVec.ofNat 32 k := by
  intro k hk heq
  rw [State.portOk_iff] at h
  have := h k hk
  rw [← heq, hx] at this
  cases this

/-- Bytes written where the port answers leave every unmapped byte and keep the canonical form. -/
theorem kept_write {s u : State} (hu : SameBut s u) {a : Word} {bs : List Byte} (hp : s.portOk a bs.length = true) :
    Kept s (u.withMem (s.mem.writeBytes a bs)) := by
  obtain ⟨h1, h2, h3, h4, h5, -, -, -⟩ := hu
  exact ⟨h1, h2, h3, h4, h5, fun h => Memory.writeBytes_wf a bs h,
    fun x hx => Memory.read_writeBytes_other (State.portOk_ne hp hx)⟩

/-! ### The shared operations of the meanings -/

theorem shape_aluWrite (i : Instr) (s : State) (op : Word → Word → Flags → AluOut) (d r : Reg) :
    Shape i s (.ok (s.aluWrite op d r)) :=
  shape_of_same (by simp [SameBut, State.aluWrite])

theorem shape_aluDivide (i : Instr) (s : State) (op : Word → Word → Flags → AluOut) (d r : Reg) :
    Shape i s (s.aluDivide op d r) := by
  unfold State.aluDivide
  split
  · exact ⟨_, _, s, rfl, .inl rfl, rfl⟩
  · exact shape_aluWrite ..

theorem shape_jumpIf (i : Instr) (s : State) (b : Bool) (disp : Word) : Shape i s (.ok (s.jumpIf b disp)) := by
  unfold State.jumpIf
  split <;> exact shape_of_same (by simp [SameBut])

theorem shape_load8 (i : Instr) (s : State) (d : Reg) (a : Word) : Shape i s (s.load8 d a) := by
  unfold State.load8
  rw [State.memRead8_eq]
  split
  · exact shape_of_same (by simp [SameBut])
  · exact shape_unmapped i (n := 1) (by omega) (by rw [State.portOk_one]; simp_all)

theorem shape_load16 (i : Instr) (s : State) (d : Reg) (a : Word) : Shape i s (s.load16 d a) := by
  unfold State.load16
  rw [State.memRead16_eq]
  split
  · exact shape_of_same (by simp [SameBut])
  · exact shape_unmapped i (n := 2) (by omega) (by simp_all)

theorem shape_load32 (i : Instr) (s : State) (d : Reg) (a : Word) : Shape i s (s.load32 d a) := by
  unfold State.load32
  rw [State.memRead32_eq]
  split
  · exact shape_of_same (by simp [SameBut])
  · exact shape_unmapped i (n := 4) (by omega) (by simp_all)

theorem sameBut_refl (s : State) : SameBut s s := ⟨rfl, rfl, rfl, rfl, rfl, rfl, rfl, rfl⟩

theorem sameBut_advanceSp (s : State) (w : Word) : SameBut s (s.advanceSp w) := by simp [SameBut, State.advanceSp]

theorem shape_store8 (i : Instr) (s : State) (d : Reg) (a : Word) : Shape i s (s.store8 d a) := by
  unfold State.store8
  rw [State.memWrite8_eq]
  split
  · exact ⟨kept_write (sameBut_refl s) (by assumption), .inr rfl, .inl rfl⟩
  · exact shape_unmapped i (n := 1) (by omega) (by simp_all)

theorem shape_store16 (i : Instr) (s : State) (d : Reg) (a : Word) : Shape i s (s.store16 d a) := by
  unfold State.store16
  rw [State.memWrite16_eq]
  split
  · exact ⟨kept_write (sameBut_refl s) (by assumption), .inr rfl, .inl rfl⟩
  · exact shape_unmapped i (n := 2) (by omega) (by simp_all)

theorem shape_store32 (i : Instr) (s : State) (d : Reg) (a : Word) : Shape i s (s.store32 d a) := by
  unfold State.store32
  rw [State.memWrite32_eq]
  split
  · exact ⟨kept_write (sameBut_refl s) (by assumption), .inr rfl, .inl rfl⟩
  · exact shape_unmapped i (n := 4) (by omega) (by simp_all)

/-- A push of a word and then an update of registers, `pc` or flags. -/
theorem shape_push32 {i : Instr} {s : State} {v : Word} {f : State → State} (hf : ∀ t, SameBut t (f t)) :
    Shape i s ((s.push32 v).map f) := by
  rw [State.push32_eq]
  split
  · rename_i h
    obtain ⟨a1, a2, a3, a4, a5, a6, a7, a8⟩ :=
      hf ((s.advanceSp 4#32).withMem (s.mem.writeBytes (s.regs.sp + 4#32) (bytes32 v)))
    obtain ⟨k1, k2, k3, k4, k5, k6, k7⟩ := kept_write (bs := bytes32 v) (sameBut_advanceSp s 4#32) h
    refine ⟨⟨a1.trans k1, a2.trans k2, a3.trans k3, a4.trans k4, a5.trans k5, ?_, ?_⟩, .inr (a7.trans rfl),
      .inl (a8.trans rfl)⟩
    · rw [a6]
      exact k6
    · intro a ha
      rw [State.byteAt_congr a6]
      exact k7 a ha
  · exact ⟨_, _, _, rfl, .inr ⟨_, rfl⟩, State.portOk_false_mono (n := 4) (by simp_all) (by omega)⟩

theorem shape_push8 (i : Instr) (s : State) (b : Byte) : Shape i s (s.push8 b) := by
  rw [State.push8_eq]
  split
  · rename_i h
    exact ⟨kept_write (bs := [b]) (sameBut_advanceSp s 1#32) h, .inr rfl, .inl rfl⟩
  · exact ⟨_, _, _, rfl, .inr ⟨_, rfl⟩, State.portOk_false_mono (n := 1) (by simp_all) (by omega)⟩

/-- A pop of a word and then an update of registers, `pc` or flags. -/
theorem shape_pop32 {i : Instr} {s : State} {f : Word × State → State} (hf : ∀ v t, SameBut t (f (v, t))) :
    Shape i s (s.pop32.map f) := by
  rw [State.pop32_eq]
  split
  · obtain ⟨a1, a2, a3, a4, a5, a6, a7, a8⟩ :=
      hf (le32 (s.byteAt s.regs.sp) (s.byteAt (s.regs.sp + 1#32)) (s.byteAt (s.regs.sp + 2#32))
        (s.byteAt (s.regs.sp + 3#32))) (s.retreatSp 4#32)
    exact shape_of_same ⟨a1, a2, a3, a4, a5, a6, a7, a8⟩
  · exact shape_unmapped i (n := 4) (by omega) (by simp_all)

/-- A pop of a byte and then an update of registers, `pc` or flags. -/
theorem shape_pop8 {i : Instr} {s : State} {f : Byte × State → State} (hf : ∀ v t, SameBut t (f (v, t))) :
    Shape i s (s.pop8.map f) := by
  rw [State.pop8_eq]
  split
  · obtain ⟨a1, a2, a3, a4, a5, a6, a7, a8⟩ := hf (s.byteAt s.regs.sp) (s.retreatSp 1#32)
    exact shape_of_same ⟨a1, a2, a3, a4, a5, a6, a7, a8⟩
  · exact shape_unmapped i (n := 1) (by omega) (by rw [State.portOk_one]; simp_all)

theorem kept_callHook (s : State) (n : Byte) : Kept s (s.callHook n) :=
  ⟨rfl, rfl, rfl, rfl, rfl, fun h => s.hookWrites_wf _ h, fun _ ha => s.hookWrites_unmapped _ _ ha⟩

theorem shape_putFlag (i : Instr) (s : State) (op k : Byte) (b : Bool) : Shape i s (s.putFlag op k b) := by
  unfold State.putFlag
  split
  · exact shape_of_same (by simp [SameBut])
  · exact ⟨_, _, s, rfl, .inl rfl, by simp [FaultFits, zext8]; omega⟩

/-! ### Every instruction -/

/-- An instruction always settles, and what it does has the shape said above. -/
theorem exec_shape (i : Instr) (s : State) : ∃ r, exec i s = settle r ∧ Shape i s r := by
  cases i
  case halt => exact ⟨.ok _, rfl, ⟨rfl, rfl, rfl, rfl, rfl, id, fun _ _ => rfl⟩, .inl rfl, .inl rfl⟩
  case int n => exact ⟨.ok _, rfl, kept_callHook s n, .inr rfl, .inr ⟨_, rfl⟩⟩
  case setf k | clrf k => exact ⟨_, rfl, shape_putFlag ..⟩
  case push q => exact ⟨_, rfl, shape_push32 (fun t => ⟨rfl, rfl, rfl, rfl, rfl, rfl, rfl, rfl⟩)⟩
  case pushf => exact ⟨_, rfl, shape_push8 ..⟩
  case pop q => exact ⟨_, rfl, shape_pop32 (fun v t => by simp [SameBut, State.clearFlags])⟩
  case popf => exact ⟨_, rfl, shape_pop8 (fun v t => by simp [SameBut])⟩
  case ret => exact ⟨_, rfl, shape_pop32 (fun v t => by simp [SameBut])⟩
  case call16 d | call32 d =>
    exact ⟨_, rfl, shape_push32 (fun t => ⟨rfl, rfl, rfl, rfl, rfl, rfl, rfl, rfl⟩)⟩
  case add d r | adc d r | sub d r | sbb d r | mul d r | umul d r | and d r | or d r | xor d r | shr d r | sar d r | shl d r | rol d r | ror d r =>
    exact ⟨.ok _, rfl, shape_aluWrite ..⟩
  case div d r | udiv d r | rem d r => exact ⟨_, rfl, shape_aluDivide ..⟩
  case cmp d r => exact ⟨.ok _, rfl, shape_of_same (by simp [SameBut, State.aluFlags])⟩
  case fadd d r | fsub d r | fmul d r | fdiv d r =>
    exact ⟨.ok _, rfl, shape_of_same (by simp [SameBut, State.floatWrite, State.floatFlags])⟩
  case fcmp d r => exact ⟨.ok _, rfl, shape_of_same (by simp [SameBut, State.floatFlags])⟩
  case movRR d r | movRI d r => exact ⟨.ok _, rfl, shape_of_same (by simp [SameBut])⟩
  case jmpR q | jmp16 q | jmp32 q => exact ⟨.ok _, rfl, shape_of_same (by simp [SameBut])⟩
  case jz16 d | jnz16 d | jg16 d | jge16 d | jl16 d | jle16 d | ja16 d | jae16 d | jb16 d | jbe16 d | jo16 d | jno16 d =>
    exact ⟨.ok _, rfl, shape_jumpIf ..⟩
  case jz32 d | jnz32 d | jg32 d | jge32 d | jl32 d | jle32 d | ja32 d | jae32 d | jb32 d | jbe32 d | jo32 d | jno32 d =>
    exact ⟨.ok _, rfl, shape_jumpIf ..⟩
  case ld8x1 d b x | ld8x2 d b x | ld8x4 d b x => exact ⟨_, rfl, shape_load8 ..⟩
  case ld8x1d d b x o | ld8x2d d b x o | ld8x4d d b x o => exact ⟨_, rfl, shape_load8 ..⟩
  case ld16x1 d b x | ld16x2 d b x | ld16x4 d b x => exact ⟨_, rfl, shape_load16 ..⟩
  case ld16x1d d b x o | ld16x2d d b x o | ld16x4d d b x o => exact ⟨_, rfl, shape_load16 ..⟩
  case ld32x1 d b x | ld32x2 d b x | ld32x4 d b x => exact ⟨_, rfl, shape_load32 ..⟩
  case ld32x1d d b x o | ld32x2d d b x o | ld32x4d d b x o => exact ⟨_, rfl, shape_load32 ..⟩
  case st8x1 d b x | st8x2 d b x | st8x4 d b x => exact ⟨_, rfl, shape_store8 ..⟩
  case st8x1d d b x o | st8x2d d b x o | st8x4d d b x o => exact ⟨_, rfl, shape_store8 ..⟩
  case st16x1 d b x | st16x2 d b x | st16x4 d b x => exact ⟨_, rfl, shape_store16 ..⟩
  case st16x1d d b x o | st16x2d d b x o | st16x4d d b x o => exact ⟨_, rfl, shape_store16 ..⟩
  case st32x1 d b x | st32x2 d b x | st32x4 d b x => exact ⟨_, rfl, shape_store32 ..⟩
  case st32x1d d b x o | st32x2d d b x o | st32x4d d b x o => exact ⟨_, rfl, shape_store32 ..⟩
end Sys2Proof.Machine
end

