-- ==== Sys2Proof/Laws/Word.lean ====
section
/-! SUPPORT. What truncation to 32 bits does to a sum, a difference, a product and a value that fits. -/

namespace Sys2Proof

@[simp] theorem trunc32_toInt (v : Word) : trunc32 v.toInt = v := by simp [trunc32]

theorem trunc32_natCast (n : Nat) : trunc32 (n : Int) = BitVec.ofNat 32 n := by simp [trunc32]

@[simp] theorem trunc32_toNat (v : Word) : trunc32 (v.toNat : Int) = v := by simp [trunc32_natCast]

theorem trunc32_add (a b : Int) : trunc32 (a + b) = trunc32 a + trunc32 b := by
  simp [trunc32, BitVec.ofInt_add]

theorem trunc32_sub (a b : Int) : trunc32 (a - b) = trunc32 a - trunc32 b := by
  rw [Int.sub_eq_add_neg, trunc32_add, BitVec.sub_eq_add_neg]
  simp [trunc32, BitVec.ofInt_neg]

theorem trunc32_mul (a b : Int) : trunc32 (a * b) = trunc32 a * trunc32 b := by
  simp [trunc32, BitVec.ofInt_mul]

end Sys2Proof
end

