-- ==== Sys2Proof/Laws/Meanings.lean ====
section
/-! SUPPORT. For each operand form, flag computation and template that the meanings share, what it gives, said once. -/

namespace Sys2Proof.Machine

/-! ### Operand forms -/

/-- The effective address, as a sum of words. -/
theorem State.ea_eq (s : State) (base : Reg) (index : IdxReg) (m : Scale) (d : Word) :
    s.ea base index m d = s.reg base + s.reg index.toReg * BitVec.ofNat 32 m.factor + d := by
  simp [State.ea, trunc32_add, trunc32_mul, trunc32_natCast]

/-- The jump target, as a sum of words. -/
theorem State.target_eq (s : State) (disp : Word) : s.target disp = s.pc + disp := by
  simp [State.target, trunc32_add]

theorem shiftCount_eq (y : Word) : shiftCount y = y.toNat % 32 := by simp [shiftCount]

theorem shiftCount_lt (y : Word) : shiftCount y < 32 := by
  rw [shiftCount_eq]
  omega

/-! ### Flags -/

theorem Flags.unpack_pack (f : Flags) : Flags.unpack f.pack = f := by
  obtain ⟨z, c, o, n, i⟩ := f
  revert z c o n i
  decide

/-- Bits 7:5 of the packed byte are zero. -/
theorem Flags.pack_high (f : Flags) : f.pack.extractLsb' 5 3 = 0#3 := by
  obtain ⟨z, c, o, n, i⟩ := f
  revert z c o n i
  decide

/-- The overflow formula in words: the operands have one sign and the result the other. -/
theorem ovf_eq (x y r : Word) : ovf x y r = (decide (x.msb = y.msb) && decide (r.msb ≠ x.msb)) := by
  unfold ovf
  simp only [BitVec.getLsbD_and, BitVec.getLsbD_not, BitVec.getLsbD_xor, BitVec.msb_eq_getLsbD_last]
  cases x.getLsbD 31 <;> cases y.getLsbD 31 <;> cases r.getLsbD 31 <;> rfl

/-- The add and subtract family: result and flags. -/
theorem arithOut_eq (x y : Word) (f : Flags) (t : Int) (carry : Bool) :
    arithOut x y f t carry =
      ⟨trunc32 t, ⟨decide (trunc32 t = 0#32), carry, ovf x y (trunc32 t), (trunc32 t).msb, f.i⟩⟩ := by
  simp [arithOut, Flags.zn, BitVec.msb_eq_getLsbD_last]

theorem mulOut_eq (f : Flags) (r : Word) : mulOut f r = ⟨r, ⟨decide (r = 0#32), f.c, f.o, r.msb, f.i⟩⟩ := by
  simp [mulOut, Flags.zn, BitVec.msb_eq_getLsbD_last]

theorem divOut_eq (f : Flags) (r : Word) : divOut f r = ⟨r, ⟨decide (r = 0#32), f.c, false, r.msb, f.i⟩⟩ := by
  simp [divOut, Flags.zn, BitVec.msb_eq_getLsbD_last]

theorem logicOut_eq (f : Flags) (r : Word) (carry : Bool) :
    logicOut f r carry = ⟨r, ⟨decide (r = 0#32), carry, false, r.msb, f.i⟩⟩ := by
  simp [logicOut, Flags.zn, BitVec.msb_eq_getLsbD_last]

/-! ### Templates -/

/-- A two-register ALU instruction writes its result, its flags and nothing else. -/
theorem State.aluWrite_eq (s : State) (op : Word → Word → Flags → AluOut) (d r : Reg) :
    s.aluWrite op d r =
      (s.withFlags (op (s.reg d) (s.reg r) s.flags).flags).writeReg d (op (s.reg d) (s.reg r) s.flags).r := rfl

theorem State.aluDivide_of_zero {s : State} (op : Word → Word → Flags → AluOut) (d : Reg) {r : Reg}
    (h : s.reg r = 0#32) : s.aluDivide op d r = .error (s.raise .divideByZero 0#32) := if_pos h

theorem State.aluDivide_of_ne {s : State} (op : Word → Word → Flags → AluOut) (d : Reg) {r : Reg}
    (h : s.reg r ≠ 0#32) : s.aluDivide op d r = .ok (s.aluWrite op d r) := if_neg h

/-- A float instruction that stores: the pattern of its result, N its sign as a number, and nothing else. -/
theorem State.floatWrite_effect (s : State) (op : FloatOp) (f : F32 → F32 → F32) (d r : Reg) :
    FloatEffect s (s.floatWrite op f d r) d
      (resultBits op (s.reg d) (s.reg r) (f (f32 (s.reg d)) (f32 (s.reg r))))
      (f (f32 (s.reg d)) (f32 (s.reg r))).isNegative := by
  refine ⟨⟨fun q hq => ?_, ?_⟩, ?_, fun a => State.byteAt_congr ?_ a, ?_⟩ <;>
    simp_all [State.floatWrite, State.floatFlags, Flags.float, State.reg_writeReg, SameRest]

theorem State.jumpIf_eq (s : State) (b : Bool) (disp : Word) :
    s.jumpIf b disp = if b then s.withPc (s.pc + disp) else s := by
  rw [State.jumpIf, State.target_eq]

/-- `CALL`: the pushed word and the jump, or the fault with SP moved. -/
theorem State.call_eq (s : State) (disp : Word) :
    s.call disp = if s.portOk (s.regs.sp + 4#32) 4 then
        .ok (((s.advanceSp 4#32).withMem (s.mem.writeBytes (s.regs.sp + 4#32) (bytes32 s.pc))).withPc (s.pc + disp))
      else .error ((s.advanceSp 4#32).raise .unmappedAddress (s.regs.sp + 4#32)) := by
  rw [State.call, State.push32_eq, State.target_eq]
  split <;> rfl

theorem State.load8_eq (s : State) (d : Reg) (a : Word) :
    s.load8 d a = if s.isMapped a then .ok (s.writeReg d (zext8 (s.byteAt a)))
      else .error (s.raise .unmappedAddress a) := by
  rw [State.load8, State.memRead8_eq]
  split <;> rfl

theorem State.load16_eq (s : State) (d : Reg) (a : Word) :
    s.load16 d a = if s.portOk a 2 then .ok (s.writeReg d (zext16 (le16 (s.byteAt a) (s.byteAt (a + 1#32)))))
      else .error (s.raise .unmappedAddress a) := by
  rw [State.load16, State.memRead16_eq]
  split <;> rfl

theorem State.load32_eq (s : State) (d : Reg) (a : Word) :
    s.load32 d a = if s.portOk a 4 then
        .ok (s.writeReg d (le32 (s.byteAt a) (s.byteAt (a + 1#32)) (s.byteAt (a + 2#32)) (s.byteAt (a + 3#32))))
      else .error (s.raise .unmappedAddress a) := by
  rw [State.load32, State.memRead32_eq]
  split <;> rfl

theorem State.store8_eq (s : State) (d : Reg) (a : Word) :
    s.store8 d a = if s.portOk a 1 then .ok (s.withMem (s.mem.writeBytes a [(s.reg d).extractLsb' 0 8]))
      else .error (s.raise .unmappedAddress a) :=
  s.memWrite8_eq a _

theorem State.store16_eq (s : State) (d : Reg) (a : Word) :
    s.store16 d a = if s.portOk a 2 then .ok (s.withMem (s.mem.writeBytes a (bytes16 ((s.reg d).extractLsb' 0 16))))
      else .error (s.raise .unmappedAddress a) :=
  s.memWrite16_eq a _

theorem State.store32_eq (s : State) (d : Reg) (a : Word) :
    s.store32 d a = if s.portOk a 4 then .ok (s.withMem (s.mem.writeBytes a (bytes32 (s.reg d))))
      else .error (s.raise .unmappedAddress a) :=
  s.memWrite32_eq a _

/-! ### Rounding -/

/-- Rounding a quotient is off by at most half the divisor, and by half only to an even number. -/
theorem roundHalfEven_spec (n d : Nat) (hd : 0 < d) :
    ∃ r : Int, (n : Int) = d * roundHalfEven n d + r ∧ 2 * |r| ≤ d ∧ (2 * |r| = d → roundHalfEven n d % 2 = 0) := by
  have h := Nat.div_add_mod n d
  have hlt := Nat.mod_lt n hd
  have hi : (n : Int) = d * ((n / d : Nat) : Int) + ((n % d : Nat) : Int) := by exact_mod_cast h.symm
  unfold roundHalfEven
  simp only
  split
  · exact ⟨(n % d : Nat), hi, by rw [abs_of_nonneg (by positivity)]; omega, by rw [abs_of_nonneg (by positivity)]; omega⟩
  split
  · refine ⟨(n % d : Nat) - d, ?_, ?_, ?_⟩
    · rw [Nat.cast_add, Nat.cast_one, mul_add]
      linarith
    · rw [abs_of_nonpos (by omega)]
      omega
    · rw [abs_of_nonpos (by omega)]
      omega
  split
  · exact ⟨(n % d : Nat), hi, by rw [abs_of_nonneg (by positivity)]; omega, fun _ => by assumption⟩
  · refine ⟨(n % d : Nat) - d, ?_, ?_, ?_⟩
    · rw [Nat.cast_add, Nat.cast_one, mul_add]
      linarith
    · rw [abs_of_nonpos (by omega)]
      omega
    · omega

end Sys2Proof.Machine
end

