-- ==== Sys2Proof/Laws/PerInstr.lean ====
section
/-! SUPPORT. Statements about every instruction, one lemma per constructor. -/

namespace Sys2Proof.Laws

/-- The encoding of an instruction is an assigned opcode byte and exactly the operand bytes of that opcode's shape
(30_encoding R75, R99). -/
def EncodedLayout.Statement (i : Instr) : Prop :=
  ∃ op bs, encode i = op :: bs ∧ ∃ form, formOf op = some form ∧ bs.length = form.operandBytes

theorem EncodedLayout.halt : EncodedLayout.Statement (.halt) := ⟨_, _, rfl, _, rfl, rfl⟩
theorem EncodedLayout.ret : EncodedLayout.Statement (.ret) := ⟨_, _, rfl, _, rfl, rfl⟩
theorem EncodedLayout.pushf : EncodedLayout.Statement (.pushf) := ⟨_, _, rfl, _, rfl, rfl⟩
theorem EncodedLayout.popf : EncodedLayout.Statement (.popf) := ⟨_, _, rfl, _, rfl, rfl⟩
theorem EncodedLayout.int (n : Byte) : EncodedLayout.Statement (.int n) := ⟨_, _, rfl, _, rfl, rfl⟩
theorem EncodedLayout.setf (k : Byte) : EncodedLayout.Statement (.setf k) := ⟨_, _, rfl, _, rfl, rfl⟩
theorem EncodedLayout.clrf (k : Byte) : EncodedLayout.Statement (.clrf k) := ⟨_, _, rfl, _, rfl, rfl⟩
theorem EncodedLayout.push (reg : Reg) : EncodedLayout.Statement (.push reg) := ⟨_, _, rfl, _, rfl, rfl⟩
theorem EncodedLayout.pop (reg : Reg) : EncodedLayout.Statement (.pop reg) := ⟨_, _, rfl, _, rfl, rfl⟩
theorem EncodedLayout.jmpR (reg : Reg) : EncodedLayout.Statement (.jmpR reg) := ⟨_, _, rfl, _, rfl, rfl⟩
theorem EncodedLayout.add (dest src : Reg) : EncodedLayout.Statement (.add dest src) := ⟨_, _, rfl, _, rfl, rfl⟩
theorem EncodedLayout.adc (dest src : Reg) : EncodedLayout.Statement (.adc dest src) := ⟨_, _, rfl, _, rfl, rfl⟩
theorem EncodedLayout.sub (dest src : Reg) : EncodedLayout.Statement (.sub dest src) := ⟨_, _, rfl, _, rfl, rfl⟩
theorem EncodedLayout.sbb (dest src : Reg) : EncodedLayout.Statement (.sbb dest src) := ⟨_, _, rfl, _, rfl, rfl⟩
theorem EncodedLayout.cmp (dest src : Reg) : EncodedLayout.Statement (.cmp dest src) := ⟨_, _, rfl, _, rfl, rfl⟩
theorem EncodedLayout.mul (dest src : Reg) : EncodedLayout.Statement (.mul dest src) := ⟨_, _, rfl, _, rfl, rfl⟩
theorem EncodedLayout.umul (dest src : Reg) : EncodedLayout.Statement (.umul dest src) := ⟨_, _, rfl, _, rfl, rfl⟩
theorem EncodedLayout.div (dest src : Reg) : EncodedLayout.Statement (.div dest src) := ⟨_, _, rfl, _, rfl, rfl⟩
theorem EncodedLayout.udiv (dest src : Reg) : EncodedLayout.Statement (.udiv dest src) := ⟨_, _, rfl, _, rfl, rfl⟩
theorem EncodedLayout.rem (dest src : Reg) : EncodedLayout.Statement (.rem dest src) := ⟨_, _, rfl, _, rfl, rfl⟩
theorem EncodedLayout.and (dest src : Reg) : EncodedLayout.Statement (.and dest src) := ⟨_, _, rfl, _, rfl, rfl⟩
theorem EncodedLayout.or (dest src : Reg) : EncodedLayout.Statement (.or dest src) := ⟨_, _, rfl, _, rfl, rfl⟩
theorem EncodedLayout.xor (dest src : Reg) : EncodedLayout.Statement (.xor dest src) := ⟨_, _, rfl, _, rfl, rfl⟩
theorem EncodedLayout.shr (dest src : Reg) : EncodedLayout.Statement (.shr dest src) := ⟨_, _, rfl, _, rfl, rfl⟩
theorem EncodedLayout.sar (dest src : Reg) : EncodedLayout.Statement (.sar dest src) := ⟨_, _, rfl, _, rfl, rfl⟩
theorem EncodedLayout.shl (dest src : Reg) : EncodedLayout.Statement (.shl dest src) := ⟨_, _, rfl, _, rfl, rfl⟩
theorem EncodedLayout.rol (dest src : Reg) : EncodedLayout.Statement (.rol dest src) := ⟨_, _, rfl, _, rfl, rfl⟩
theorem EncodedLayout.ror (dest src : Reg) : EncodedLayout.Statement (.ror dest src) := ⟨_, _, rfl, _, rfl, rfl⟩
theorem EncodedLayout.fadd (dest src : Reg) : EncodedLayout.Statement (.fadd dest src) := ⟨_, _, rfl, _, rfl, rfl⟩
theorem EncodedLayout.fsub (dest src : Reg) : EncodedLayout.Statement (.fsub dest src) := ⟨_, _, rfl, _, rfl, rfl⟩
theorem EncodedLayout.fmul (dest src : Reg) : EncodedLayout.Statement (.fmul dest src) := ⟨_, _, rfl, _, rfl, rfl⟩
theorem EncodedLayout.fdiv (dest src : Reg) : EncodedLayout.Statement (.fdiv dest src) := ⟨_, _, rfl, _, rfl, rfl⟩
theorem EncodedLayout.fcmp (dest src : Reg) : EncodedLayout.Statement (.fcmp dest src) := ⟨_, _, rfl, _, rfl, rfl⟩
theorem EncodedLayout.movRR (dest src : Reg) : EncodedLayout.Statement (.movRR dest src) := ⟨_, _, rfl, _, rfl, rfl⟩
theorem EncodedLayout.movRI (dest : Reg) (imm : Word) : EncodedLayout.Statement (.movRI dest imm) := ⟨_, _, rfl, _, rfl, rfl⟩
theorem EncodedLayout.jmp16 (disp : BitVec 16) : EncodedLayout.Statement (.jmp16 disp) := ⟨_, _, rfl, _, rfl, rfl⟩
theorem EncodedLayout.jmp32 (disp : Word) : EncodedLayout.Statement (.jmp32 disp) := ⟨_, _, rfl, _, rfl, rfl⟩
theorem EncodedLayout.jz16 (disp : BitVec 16) : EncodedLayout.Statement (.jz16 disp) := ⟨_, _, rfl, _, rfl, rfl⟩
theorem EncodedLayout.jz32 (disp : Word) : EncodedLayout.Statement (.jz32 disp) := ⟨_, _, rfl, _, rfl, rfl⟩
theorem EncodedLayout.jnz16 (disp : BitVec 16) : EncodedLayout.Statement (.jnz16 disp) := ⟨_, _, rfl, _, rfl, rfl⟩
theorem EncodedLayout.jnz32 (disp : Word) : EncodedLayout.Statement (.jnz32 disp) := ⟨_, _, rfl, _, rfl, rfl⟩
theorem EncodedLayout.jg16 (disp : BitVec 16) : EncodedLayout.Statement (.jg16 disp) := ⟨_, _, rfl, _, rfl, rfl⟩
theorem EncodedLayout.jg32 (disp : Word) : EncodedLayout.Statement (.jg32 disp) := ⟨_, _, rfl, _, rfl, rfl⟩
theorem EncodedLayout.jge16 (disp : BitVec 16) : EncodedLayout.Statement (.jge16 disp) := ⟨_, _, rfl, _, rfl, rfl⟩
theorem EncodedLayout.jge32 (disp : Word) : EncodedLayout.Statement (.jge32 disp) := ⟨_, _, rfl, _, rfl, rfl⟩
theorem EncodedLayout.jl16 (disp : BitVec 16) : EncodedLayout.Statement (.jl16 disp) := ⟨_, _, rfl, _, rfl, rfl⟩
theorem EncodedLayout.jl32 (disp : Word) : EncodedLayout.Statement (.jl32 disp) := ⟨_, _, rfl, _, rfl, rfl⟩
theorem EncodedLayout.jle16 (disp : BitVec 16) : EncodedLayout.Statement (.jle16 disp) := ⟨_, _, rfl, _, rfl, rfl⟩
theorem EncodedLayout.jle32 (disp : Word) : EncodedLayout.Statement (.jle32 disp) := ⟨_, _, rfl, _, rfl, rfl⟩
theorem EncodedLayout.ja16 (disp : BitVec 16) : EncodedLayout.Statement (.ja16 disp) := ⟨_, _, rfl, _, rfl, rfl⟩
theorem EncodedLayout.ja32 (disp : Word) : EncodedLayout.Statement (.ja32 disp) := ⟨_, _, rfl, _, rfl, rfl⟩
theorem EncodedLayout.jae16 (disp : BitVec 16) : EncodedLayout.Statement (.jae16 disp) := ⟨_, _, rfl, _, rfl, rfl⟩
theorem EncodedLayout.jae32 (disp : Word) : EncodedLayout.Statement (.jae32 disp) := ⟨_, _, rfl, _, rfl, rfl⟩
theorem EncodedLayout.jb16 (disp : BitVec 16) : EncodedLayout.Statement (.jb16 disp) := ⟨_, _, rfl, _, rfl, rfl⟩
theorem EncodedLayout.jb32 (disp : Word) : EncodedLayout.Statement (.jb32 disp) := ⟨_, _, rfl, _, rfl, rfl⟩
theorem EncodedLayout.jbe16 (disp : BitVec 16) : EncodedLayout.Statement (.jbe16 disp) := ⟨_, _, rfl, _, rfl, rfl⟩
theorem EncodedLayout.jbe32 (disp : Word) : EncodedLayout.Statement (.jbe32 disp) := ⟨_, _, rfl, _, rfl, rfl⟩
theorem EncodedLayout.jo16 (disp : BitVec 16) : EncodedLayout.Statement (.jo16 disp) := ⟨_, _, rfl, _, rfl, rfl⟩
theorem EncodedLayout.jo32 (disp : Word) : EncodedLayout.Statement (.jo32 disp) := ⟨_, _, rfl, _, rfl, rfl⟩
theorem EncodedLayout.jno16 (disp : BitVec 16) : EncodedLayout.Statement (.jno16 disp) := ⟨_, _, rfl, _, rfl, rfl⟩
theorem EncodedLayout.jno32 (disp : Word) : EncodedLayout.Statement (.jno32 disp) := ⟨_, _, rfl, _, rfl, rfl⟩
theorem EncodedLayout.call16 (disp : BitVec 16) : EncodedLayout.Statement (.call16 disp) := ⟨_, _, rfl, _, rfl, rfl⟩
theorem EncodedLayout.call32 (disp : Word) : EncodedLayout.Statement (.call32 disp) := ⟨_, _, rfl, _, rfl, rfl⟩
theorem EncodedLayout.ld8x1 (data base : Reg) (index : IdxReg) : EncodedLayout.Statement (.ld8x1 data base index) := ⟨_, _, rfl, _, rfl, rfl⟩
theorem EncodedLayout.ld8x2 (data base : Reg) (index : IdxReg) : EncodedLayout.Statement (.ld8x2 data base index) := ⟨_, _, rfl, _, rfl, rfl⟩
theorem EncodedLayout.ld8x4 (data base : Reg) (index : IdxReg) : EncodedLayout.Statement (.ld8x4 data base index) := ⟨_, _, rfl, _, rfl, rfl⟩
theorem EncodedLayout.ld8x1d (data base : Reg) (index : IdxReg) (disp : Word) : EncodedLayout.Statement (.ld8x1d data base index disp) := ⟨_, _, rfl, _, rfl, rfl⟩
theorem EncodedLayout.ld8x2d (data base : Reg) (index : IdxReg) (disp : Word) : EncodedLayout.Statement (.ld8x2d data base index disp) := ⟨_, _, rfl, _, rfl, rfl⟩
theorem EncodedLayout.ld8x4d (data base : Reg) (index : IdxReg) (disp : Word) : EncodedLayout.Statement (.ld8x4d data base index disp) := ⟨_, _, rfl, _, rfl, rfl⟩
theorem EncodedLayout.st8x1 (data base : Reg) (index : IdxReg) : EncodedLayout.Statement (.st8x1 data base index) := ⟨_, _, rfl, _, rfl, rfl⟩
theorem EncodedLayout.st8x2 (data base : Reg) (index : IdxReg) : EncodedLayout.Statement (.st8x2 data base index) := ⟨_, _, rfl, _, rfl, rfl⟩
theorem EncodedLayout.st8x4 (data base : Reg) (index : IdxReg) : EncodedLayout.Statement (.st8x4 data base index) := ⟨_, _, rfl, _, rfl, rfl⟩
theorem EncodedLayout.st8x1d (data base : Reg) (index : IdxReg) (disp : Word) : EncodedLayout.Statement (.st8x1d data base index disp) := ⟨_, _, rfl, _, rfl, rfl⟩
theorem EncodedLayout.st8x2d (data base : Reg) (index : IdxReg) (disp : Word) : EncodedLayout.Statement (.st8x2d data base index disp) := ⟨_, _, rfl, _, rfl, rfl⟩
theorem EncodedLayout.st8x4d (data base : Reg) (index : IdxReg) (disp : Word) : EncodedLayout.Statement (.st8x4d data base index disp) := ⟨_, _, rfl, _, rfl, rfl⟩
theorem EncodedLayout.ld16x1 (data base : Reg) (index : IdxReg) : EncodedLayout.Statement (.ld16x1 data base index) := ⟨_, _, rfl, _, rfl, rfl⟩
theorem EncodedLayout.ld16x2 (data base : Reg) (index : IdxReg) : EncodedLayout.Statement (.ld16x2 data base index) := ⟨_, _, rfl, _, rfl, rfl⟩
theorem EncodedLayout.ld16x4 (data base : Reg) (index : IdxReg) : EncodedLayout.Statement (.ld16x4 data base index) := ⟨_, _, rfl, _, rfl, rfl⟩
theorem EncodedLayout.ld16x1d (data base : Reg) (index : IdxReg) (disp : Word) : EncodedLayout.Statement (.ld16x1d data base index disp) := ⟨_, _, rfl, _, rfl, rfl⟩
theorem EncodedLayout.ld16x2d (data base : Reg) (index : IdxReg) (disp : Word) : EncodedLayout.Statement (.ld16x2d data base index disp) := ⟨_, _, rfl, _, rfl, rfl⟩
theorem EncodedLayout.ld16x4d (data base : Reg) (index : IdxReg) (disp : Word) : EncodedLayout.Statement (.ld16x4d data base index disp) := ⟨_, _, rfl, _, rfl, rfl⟩
theorem EncodedLayout.st16x1 (data base : Reg) (index : IdxReg) : EncodedLayout.Statement (.st16x1 data base index) := ⟨_, _, rfl, _, rfl, rfl⟩
theorem EncodedLayout.st16x2 (data base : Reg) (index : IdxReg) : EncodedLayout.Statement (.st16x2 data base index) := ⟨_, _, rfl, _, rfl, rfl⟩
theorem EncodedLayout.st16x4 (data base : Reg) (index : IdxReg) : EncodedLayout.Statement (.st16x4 data base index) := ⟨_, _, rfl, _, rfl, rfl⟩
theorem EncodedLayout.st16x1d (data base : Reg) (index : IdxReg) (disp : Word) : EncodedLayout.Statement (.st16x1d data base index disp) := ⟨_, _, rfl, _, rfl, rfl⟩
theorem EncodedLayout.st16x2d (data base : Reg) (index : IdxReg) (disp : Word) : EncodedLayout.Statement (.st16x2d data base index disp) := ⟨_, _, rfl, _, rfl, rfl⟩
theorem EncodedLayout.st16x4d (data base : Reg) (index : IdxReg) (disp : Word) : EncodedLayout.Statement (.st16x4d data base index disp) := ⟨_, _, rfl, _, rfl, rfl⟩
theorem EncodedLayout.ld32x1 (data base : Reg) (index : IdxReg) : EncodedLayout.Statement (.ld32x1 data base index) := ⟨_, _, rfl, _, rfl, rfl⟩
theorem EncodedLayout.ld32x2 (data base : Reg) (index : IdxReg) : EncodedLayout.Statement (.ld32x2 data base index) := ⟨_, _, rfl, _, rfl, rfl⟩
theorem EncodedLayout.ld32x4 (data base : Reg) (index : IdxReg) : EncodedLayout.Statement (.ld32x4 data base index) := ⟨_, _, rfl, _, rfl, rfl⟩
theorem EncodedLayout.ld32x1d (data base : Reg) (index : IdxReg) (disp : Word) : EncodedLayout.Statement (.ld32x1d data base index disp) := ⟨_, _, rfl, _, rfl, rfl⟩
theorem EncodedLayout.ld32x2d (data base : Reg) (index : IdxReg) (disp : Word) : EncodedLayout.Statement (.ld32x2d data base index disp) := ⟨_, _, rfl, _, rfl, rfl⟩
theorem EncodedLayout.ld32x4d (data base : Reg) (index : IdxReg) (disp : Word) : EncodedLayout.Statement (.ld32x4d data base index disp) := ⟨_, _, rfl, _, rfl, rfl⟩
theorem EncodedLayout.st32x1 (data base : Reg) (index : IdxReg) : EncodedLayout.Statement (.st32x1 data base index) := ⟨_, _, rfl, _, rfl, rfl⟩
theorem EncodedLayout.st32x2 (data base : Reg) (index : IdxReg) : EncodedLayout.Statement (.st32x2 data base index) := ⟨_, _, rfl, _, rfl, rfl⟩
theorem EncodedLayout.st32x4 (data base : Reg) (index : IdxReg) : EncodedLayout.Statement (.st32x4 data base index) := ⟨_, _, rfl, _, rfl, rfl⟩
theorem EncodedLayout.st32x1d (data base : Reg) (index : IdxReg) (disp : Word) : EncodedLayout.Statement (.st32x1d data base index disp) := ⟨_, _, rfl, _, rfl, rfl⟩
theorem EncodedLayout.st32x2d (data base : Reg) (index : IdxReg) (disp : Word) : EncodedLayout.Statement (.st32x2d data base index disp) := ⟨_, _, rfl, _, rfl, rfl⟩
theorem EncodedLayout.st32x4d (data base : Reg) (index : IdxReg) (disp : Word) : EncodedLayout.Statement (.st32x4d data base index disp) := ⟨_, _, rfl, _, rfl, rfl⟩

end Sys2Proof.Laws
end

