-- ==== Sys2Proof/Laws/Step.lean ====
section
/-! SUPPORT. What the fetch and a step can do, said once. -/

namespace Sys2Proof.Machine

/-! ### The fetch -/

theorem State.fetch8_of_mapped {s : State} (h : s.isMapped s.pc = true) :
    s.fetch8 = .ok (s.byteAt s.pc, s.withPc (s.pc + 1#32)) := by
  simp [State.fetch8, State.memRead8_eq, h]

theorem State.fetch8_of_unmapped {s : State} (h : s.isMapped s.pc = false) :
    s.fetch8 = .error (s.raise .unmappedAddress s.pc) := by
  simp [State.fetch8, State.memRead8_eq, h]

@[simp] theorem State.isMapped_withPc (s : State) (v a : Word) : (s.withPc v).isMapped a = s.isMapped a := rfl
@[simp] theorem State.portOk_withPc (s : State) (v a : Word) (n : Nat) : (s.withPc v).portOk a n = s.portOk a n := rfl
@[simp] theorem State.byteAt_withPc (s : State) (v a : Word) : (s.withPc v).byteAt a = s.byteAt a := rfl
@[simp] theorem State.withPc_withPc (s : State) (v w : Word) : (s.withPc v).withPc w = s.withPc w := rfl

/-- The address `j + 1` bytes on is `j` bytes on from the next. -/
theorem addr_succ (a : Word) (j : Nat) : a + 1#32 + BitVec.ofNat 32 j = a + BitVec.ofNat 32 (j + 1) := by
  rw [BitVec.add_assoc, BitVec.add_comm 1#32, ← BitVec.ofNat_add]

/-- All bytes mapped: the bytes in address order, and `pc` past them. -/
theorem State.fetchBytes_of_mapped (s : State) (n : Nat) (h : s.portOk s.pc n = true) :
    s.fetchBytes n = .ok ((List.range n).map fun k => s.byteAt (s.pc + BitVec.ofNat 32 k),
      s.withPc (s.pc + BitVec.ofNat 32 n)) := by
  induction n with
  | zero => simp [State.fetchBytes]; rfl
  | succ n ih =>
    rw [State.portOk_iff] at h
    have h' : s.portOk s.pc n = true := by
      rw [State.portOk_iff]
      exact fun k hk => h k (by omega)
    have hn : (s.withPc (s.pc + BitVec.ofNat 32 n)).isMapped (s.withPc (s.pc + BitVec.ofNat 32 n)).pc = true :=
      h n (by omega)
    rw [State.fetchBytes, ih h']
    simp only [State.fetch8_of_mapped hn, except_map_ok, List.range_succ, List.map_append]
    simp [BitVec.add_assoc, BitVec.ofNat_add n 1]

/-- The first unmapped byte: `pc` stays at it. -/
theorem State.fetchBytes_of_unmapped (s : State) {n k : Nat} (hk : k < n) (h : s.portOk s.pc k = true)
    (hu : s.isMapped (s.pc + BitVec.ofNat 32 k) = false) :
    s.fetchBytes n =
      .error ((s.withPc (s.pc + BitVec.ofNat 32 k)).raise .unmappedAddress (s.pc + BitVec.ofNat 32 k)) := by
  induction n with
  | zero => omega
  | succ n ih =>
    rw [State.fetchBytes]
    by_cases hkn : k = n
    · subst hkn
      rw [State.fetchBytes_of_mapped s k h]
      simp only
      rw [State.fetch8_of_unmapped hu]
      rfl
    · rw [ih (by omega)]

/-- What a fetch of several bytes can do. -/
theorem State.fetchBytes_cases (s : State) (n : Nat) :
    (∃ bs, s.fetchBytes n = .ok (bs, s.withPc (s.pc + BitVec.ofNat 32 n)) ∧ bs.length = n) ∨
      ∃ a, s.fetchBytes n = .error ((s.withPc a).raise .unmappedAddress a) ∧ s.isMapped a = false := by
  induction n with
  | zero => exact .inl ⟨[], by simp [State.fetchBytes]; rfl, rfl⟩
  | succ n ih =>
    rw [State.fetchBytes]
    rcases ih with ⟨bs, h, hl⟩ | ⟨a, h, ha⟩ <;> rw [h]
    · cases hm : s.isMapped (s.pc + BitVec.ofNat 32 n) with
      | true =>
        refine .inl ⟨bs ++ [s.byteAt (s.pc + BitVec.ofNat 32 n)], ?_, by simp [hl]⟩
        simp only
        rw [State.fetch8_of_mapped (by simpa using hm)]
        simp [BitVec.add_assoc, BitVec.ofNat_add n 1]
      | false =>
        refine .inr ⟨_, ?_, hm⟩
        simp only
        rw [State.fetch8_of_unmapped (by simpa using hm)]
        rfl
    · exact .inr ⟨a, rfl, ha⟩

/-- What a fetch can do: an instruction with `pc` past it, or a fault with only `pc` moved. -/
theorem State.fetchInstr_cases (s : State) :
    (∃ i v, s.fetchInstr = .ok (i, s.withPc v)) ∨
      (∃ v op, s.fetchInstr = .error ((s.withPc v).raise .unknownOpcode (zext8 op))) ∨
      ∃ a, s.fetchInstr = .error ((s.withPc a).raise .unmappedAddress a) ∧ s.isMapped a = false := by
  unfold State.fetchInstr
  cases hm : s.isMapped s.pc with
  | false =>
    rw [State.fetch8_of_unmapped hm]
    exact .inr (.inr ⟨s.pc, rfl, hm⟩)
  | true =>
    rw [State.fetch8_of_mapped hm]
    simp only
    cases hf : formOf (s.byteAt s.pc) with
    | none => exact .inr (.inl ⟨_, _, rfl⟩)
    | some form =>
      simp only
      rcases (s.withPc (s.pc + 1#32)).fetchBytes_cases form.operandBytes with ⟨bs, h, hl⟩ | ⟨a, h, ha⟩ <;> rw [h]
      · obtain ⟨i, hi⟩ := form.build_of_length bs hl
        simp only [hi]
        exact .inl ⟨i, _, rfl⟩
      · exact .inr (.inr ⟨a, rfl, ha⟩)

/-! ### A step -/

theorem step_of_halted {s : State} (h : s.mode = .halted) : step s = .next s := by simp [step, h]

/-- What a step of a running core can do: the fetch faults, or the fetched instruction runs and, if it completed, the
interrupt check follows. -/
theorem step_of_running {s : State} (h : s.mode = .running) :
    (∃ v cause info, step s = .next ((s.withPc v).raise cause info) ∧ FaultFits s cause info ∧
      ∀ i u, s.fetchInstr ≠ .ok (i, u)) ∨
      ∃ i v r, s.fetchInstr = .ok (i, s.withPc v) ∧ Shape i (s.withPc v) r ∧
        match r with
        | .ok t => exec i (s.withPc v) = .next t ∧ step s = .next t.serviceIrq
        | .error t => exec i (s.withPc v) = .next t ∧ step s = .next t := by
  rcases s.fetchInstr_cases with ⟨i, v, hf⟩ | ⟨v, op, hf⟩ | ⟨a, hf, ha⟩
  · refine .inr ?_
    by_cases hi : i = .halt
    · subst hi
      refine ⟨.halt, v, .ok ((s.withPc v).withMode .halted), hf,
        ⟨⟨rfl, rfl, rfl, rfl, rfl, id, fun _ _ => rfl⟩, .inl rfl, .inl rfl⟩, rfl, ?_⟩
      simp only [step, h, hf]
      rfl
    · obtain ⟨r, hr, hshape⟩ := exec_shape i (s.withPc v)
      refine ⟨i, v, r, hf, hshape, ?_⟩
      cases r with
      | ok t =>
        have hc : completed i t = true := by
          have hm := hshape.2.1.resolve_left hi
          simp [completed, hm, h]
        exact ⟨hr, by simp [step, h, hf, hr, endOfStep, hc]⟩
      | error t =>
        have hc : completed i t = false := by
          obtain ⟨c, w, u, ht, -, -⟩ := hshape
          subst ht
          simp [completed, hi]
        exact ⟨hr, by simp [step, h, hf, hr, endOfStep, hc]⟩
  · refine .inl ⟨v, .unknownOpcode, zext8 op, by simp [step, h, hf], by simp [FaultFits, zext8]; omega, by simp [hf]⟩
  · refine .inl ⟨a, .unmappedAddress, a, by simp [step, h, hf], ?_, by simp [hf]⟩
    exact State.portOk_false_mono (n := 1) (by rw [State.portOk_one]; exact ha) (by omega)

/-! ### The host's run -/

theorem core_run_succ (M : Host.Core) (k : Nat) (s t : M.State) (h : M.step s = .next t) :
    M.run (k + 1) s = M.run k t := by
  have : M.run (k + 1) s = match M.step s with
      | .next t => M.run k t
      | .fault r => .fault r
      | .refused r => .refused r := rfl
  rw [this, h]

/-- The host's run of a state whose step changes nothing. -/
theorem core_run_of_fixed {s : State} (h : step s = .next s) (k : Nat) : Host.Core.run core k s = .next s := by
  induction k with
  | zero => rfl
  | succ k ih => exact (core_run_succ core k s s h).trans ih

end Sys2Proof.Machine
end

