-- ==== Sys2Proof/Tests/Slice0.lean ====
section
/-! SUPPORT. Tests and witnesses. The expected results of the tests are those of spec/95_test_vectors.md and of the
worked examples of 42_moves and 43_control; a witness is a concrete state and operands that meet the hypotheses of the
statement it names, clause by clause. -/

namespace Sys2Proof.Tests

open Sys2Proof Sys2Proof.Machine

/-! ### Helpers -/

/-- Flags in the order Z, C, O, N, I. -/
def fl (z c o n i : Nat) : Flags := ⟨decide (z = 1), decide (c = 1), decide (o = 1), decide (n = 1), decide (i = 1)⟩

/-- Registers R1 to RG and SP as given. -/
def rs (r1 r2 r3 r4 rg sp : Word) : Regs := ⟨r1, r2, r3, r4, rg, sp⟩

/-- All registers 0. -/
def z0 : Regs := rs 0 0 0 0 0 0

/-- A state with the program at `0x1000` and `pc` there. -/
def st (regs : Regs) (flags : Flags) (bytes : List Byte) : State :=
  ((State.reset.withRegs regs).withFlags flags).loadProgram 0x1000 bytes

/-- Further bytes of memory. -/
def also (s : State) (a : Word) (bytes : List Byte) : State := s.loadProgram a bytes

/-- The state after one step. -/
def run1 (s : State) : State :=
  match step s with
  | .next t => t
  | .fault _ => s
  | .refused _ => s

/-- The bytes of memory from an address on. -/
def bytesAt (s : State) (a : Word) (n : Nat) : List Byte := (List.range n).map fun k => s.byteAt (a + BitVec.ofNat 32 k)

/-- One step of a two-register instruction `op R1, R2` on `x` and `y`: R1, the flags and the fault after it. -/
def alu (op : Byte) (x y : Word) (f : Flags) : Word × Flags × Cause :=
  let t := run1 (st (rs x y 0 0 0 0) f [op, 0x08])
  (t.regs.r1, t.flags, t.fault)

/-- What the decoder reads, where nothing is left over. -/
def dec (bytes : List Byte) : Option Instr :=
  match decode bytes with
  | .ok (i, []) => some i
  | .ok (_, _ :: _) => none
  | .error _ => none

/-- The setup of the move examples: `0x2000 + k` holds `0x80 + k`. -/
def mst (bytes : List Byte) : State :=
  also (st (rs 0xA1B2C3D4 0x2000 3 0 0 0) (fl 1 1 1 1 1) bytes) 0x2000
    ((List.range 32).map fun k => BitVec.ofNat 8 (0x80 + k))

/-- The bytes listed in memory from `0x2000` up after one step of a store, over memory of zeros. -/
def diff (bytes : List Byte) : List Host.Cell :=
  (run1 (st (rs 0xA1B2C3D4 0x2000 3 0 0 0) (fl 1 1 1 1 1) bytes)).mem.filter fun c => decide (0x2000 ≤ c.1)

/-- Only these ranges are mapped. -/
def only (s : State) (ranges : List Region) : State := s.withMapped ranges

/-- `0x1000` to `0x1FFF` and `0x8000` to `0x8FFF`. -/
def twoRanges : List Region := [⟨0x1000, 0x1000⟩, ⟨0x8000, 0x1000⟩]

/-- Fault, fault info, mode and `pc`. -/
def ended (s : State) : Cause × Word × Mode × Word := (s.fault, s.faultInfo, s.mode, s.pc)

/-! ### Well-formedness and the codec -/

theorem test_wf_refuses_flag_index_5 : Instr.wf (.setf 5) = false ∧ Instr.wf (.clrf 0x0C) = false := by decide
theorem test_wf_accepts_flag_index_4 : Instr.wf (.setf 4) = true ∧ Instr.wf (.clrf 0) = true := by decide
theorem test_opmap_has_99_opcodes : opmapRows.length = 99 ∧ (opmapRows.map Prod.fst).Nodup := by decide

/-- 95_test_vectors E-1 to E-5. -/
theorem test_modrr :
    [unpackModRR 0x08, unpackModRR 0x88, unpackModRR 0xFF] = [⟨0, 1, 0⟩, ⟨0, 1, 2⟩, ⟨7, 7, 3⟩] ∧
      [packModRR ⟨5, 6, 3⟩, packModRR ⟨1, 1, 0⟩] = [0xF5, 0x09] := by
  decide

/-- 95_test_vectors E-6 to E-8. -/
theorem test_fields :
    [sext16 (le16 0xFD 0xFF), sext16 (le16 0x00 0x80), le32 0x78 0x56 0x34 0x12] =
      [0xFFFFFFFD#32, 0xFFFF8000#32, 0x12345678#32] ∧ bytes32 0x12345678 = [0x78, 0x56, 0x34, 0x12] := by
  decide

/-- 95_test_vectors E-9. -/
theorem test_lengths :
    ([0x01, 0x08, 0x10, 0x31, 0x40, 0x41, 0x80, 0x84, 0xAE] : List Byte).map (fun op => (formOf op).map Form.operandBytes) =
      [some 0, some 1, some 1, some 5, some 2, some 4, some 1, some 5, some 5] := by
  decide

theorem test_decoder_rejects_by_name :
    decode [] = .error .noOpcode ∧ decode [0x00, 0x00] = .error (.unknownOpcode 0x00) ∧
      decode [0x31, 0x00, 0x78] = .error (.truncated 0x31) := by
  decide

theorem test_decode_plain :
    [[0x01], [0x02], [0x03], [0x04],
      [0x05, 0x21], [0x06, 0x04], [0x07, 0x04], [0x08, 0x05],
      [0x09, 0x05], [0x0A, 0x05], [0x31, 0x06, 0x78, 0x56, 0x34, 0x12]].map dec =
    [some .halt, some .ret, some .pushf,
      some .popf, some (.int 0x21), some (.setf 4),
      some (.clrf 4), some (.push .sp), some (.pop .sp),
      some (.jmpR .sp), some (.movRI .pc 0x12345678)] := by
  decide

theorem test_decode_two_registers :
    [[0x10, 0x08], [0x11, 0x08], [0x12, 0x08], [0x13, 0x08],
      [0x14, 0x08], [0x15, 0x08], [0x16, 0x08], [0x17, 0x08],
      [0x18, 0x08], [0x19, 0x08], [0x1A, 0x08], [0x1B, 0x08],
      [0x1C, 0x08], [0x1D, 0x08], [0x1E, 0x08], [0x1F, 0x08],
      [0x20, 0x08], [0x21, 0x08], [0x28, 0x08], [0x29, 0x08],
      [0x2A, 0x08], [0x2B, 0x08], [0x2C, 0x08], [0x30, 0x08]].map dec =
    [some (.add .r1 .r2), some (.adc .r1 .r2), some (.sub .r1 .r2),
      some (.sbb .r1 .r2), some (.cmp .r1 .r2), some (.mul .r1 .r2),
      some (.umul .r1 .r2), some (.div .r1 .r2), some (.udiv .r1 .r2),
      some (.rem .r1 .r2), some (.and .r1 .r2), some (.or .r1 .r2),
      some (.xor .r1 .r2), some (.shr .r1 .r2), some (.sar .r1 .r2),
      some (.shl .r1 .r2), some (.rol .r1 .r2), some (.ror .r1 .r2),
      some (.fadd .r1 .r2), some (.fsub .r1 .r2), some (.fmul .r1 .r2),
      some (.fdiv .r1 .r2), some (.fcmp .r1 .r2), some (.movRR .r1 .r2)] := by
  decide

theorem test_decode_jumps16 :
    [[0x40, 0xF0, 0xFF], [0x42, 0xF0, 0xFF], [0x44, 0xF0, 0xFF], [0x46, 0xF0, 0xFF],
      [0x48, 0xF0, 0xFF], [0x4A, 0xF0, 0xFF], [0x4C, 0xF0, 0xFF], [0x4E, 0xF0, 0xFF],
      [0x50, 0xF0, 0xFF], [0x52, 0xF0, 0xFF], [0x54, 0xF0, 0xFF], [0x56, 0xF0, 0xFF],
      [0x58, 0xF0, 0xFF], [0x5A, 0xF0, 0xFF]].map dec =
    [some (.jmp16 0xFFF0), some (.jz16 0xFFF0), some (.jnz16 0xFFF0),
      some (.jg16 0xFFF0), some (.jge16 0xFFF0), some (.jl16 0xFFF0),
      some (.jle16 0xFFF0), some (.ja16 0xFFF0), some (.jae16 0xFFF0),
      some (.jb16 0xFFF0), some (.jbe16 0xFFF0), some (.jo16 0xFFF0),
      some (.jno16 0xFFF0), some (.call16 0xFFF0)] := by
  decide

theorem test_decode_jumps32 :
    [[0x41, 0xF0, 0xFF, 0xFF, 0xFF], [0x43, 0xF0, 0xFF, 0xFF, 0xFF], [0x45, 0xF0, 0xFF, 0xFF, 0xFF], [0x47, 0xF0, 0xFF, 0xFF, 0xFF],
      [0x49, 0xF0, 0xFF, 0xFF, 0xFF], [0x4B, 0xF0, 0xFF, 0xFF, 0xFF], [0x4D, 0xF0, 0xFF, 0xFF, 0xFF], [0x4F, 0xF0, 0xFF, 0xFF, 0xFF],
      [0x51, 0xF0, 0xFF, 0xFF, 0xFF], [0x53, 0xF0, 0xFF, 0xFF, 0xFF], [0x55, 0xF0, 0xFF, 0xFF, 0xFF], [0x57, 0xF0, 0xFF, 0xFF, 0xFF],
      [0x59, 0xF0, 0xFF, 0xFF, 0xFF], [0x5B, 0xF0, 0xFF, 0xFF, 0xFF]].map dec =
    [some (.jmp32 0xFFFFFFF0), some (.jz32 0xFFFFFFF0), some (.jnz32 0xFFFFFFF0),
      some (.jg32 0xFFFFFFF0), some (.jge32 0xFFFFFFF0), some (.jl32 0xFFFFFFF0),
      some (.jle32 0xFFFFFFF0), some (.ja32 0xFFFFFFF0), some (.jae32 0xFFFFFFF0),
      some (.jb32 0xFFFFFFF0), some (.jbe32 0xFFFFFFF0), some (.jo32 0xFFFFFFF0),
      some (.jno32 0xFFFFFFF0), some (.call32 0xFFFFFFF0)] := by
  decide

theorem test_decode_memory_moves :
    [[0x80, 0x88], [0x81, 0x88], [0x82, 0x88], [0x88, 0x88],
      [0x89, 0x88], [0x8A, 0x88], [0x90, 0x88], [0x91, 0x88],
      [0x92, 0x88], [0x98, 0x88], [0x99, 0x88], [0x9A, 0x88],
      [0xA0, 0x88], [0xA1, 0x88], [0xA2, 0x88], [0xA8, 0x88],
      [0xA9, 0x88], [0xAA, 0x88]].map dec =
    [some (.ld8x1 .r1 .r2 .r3), some (.ld8x2 .r1 .r2 .r3), some (.ld8x4 .r1 .r2 .r3),
      some (.st8x1 .r1 .r2 .r3), some (.st8x2 .r1 .r2 .r3), some (.st8x4 .r1 .r2 .r3),
      some (.ld16x1 .r1 .r2 .r3), some (.ld16x2 .r1 .r2 .r3), some (.ld16x4 .r1 .r2 .r3),
      some (.st16x1 .r1 .r2 .r3), some (.st16x2 .r1 .r2 .r3), some (.st16x4 .r1 .r2 .r3),
      some (.ld32x1 .r1 .r2 .r3), some (.ld32x2 .r1 .r2 .r3), some (.ld32x4 .r1 .r2 .r3),
      some (.st32x1 .r1 .r2 .r3), some (.st32x2 .r1 .r2 .r3), some (.st32x4 .r1 .r2 .r3)] := by
  decide

theorem test_decode_memory_moves_with_offset :
    [[0x84, 0x88, 0x10, 0x20, 0x30, 0x40], [0x85, 0x88, 0x10, 0x20, 0x30, 0x40], [0x86, 0x88, 0x10, 0x20, 0x30, 0x40], [0x8C, 0x88, 0x10, 0x20, 0x30, 0x40],
      [0x8D, 0x88, 0x10, 0x20, 0x30, 0x40], [0x8E, 0x88, 0x10, 0x20, 0x30, 0x40], [0x94, 0x88, 0x10, 0x20, 0x30, 0x40], [0x95, 0x88, 0x10, 0x20, 0x30, 0x40],
      [0x96, 0x88, 0x10, 0x20, 0x30, 0x40], [0x9C, 0x88, 0x10, 0x20, 0x30, 0x40], [0x9D, 0x88, 0x10, 0x20, 0x30, 0x40], [0x9E, 0x88, 0x10, 0x20, 0x30, 0x40],
      [0xA4, 0x88, 0x10, 0x20, 0x30, 0x40], [0xA5, 0x88, 0x10, 0x20, 0x30, 0x40], [0xA6, 0x88, 0x10, 0x20, 0x30, 0x40], [0xAC, 0x88, 0x10, 0x20, 0x30, 0x40],
      [0xAD, 0x88, 0x10, 0x20, 0x30, 0x40], [0xAE, 0x88, 0x10, 0x20, 0x30, 0x40]].map dec =
    [some (.ld8x1d .r1 .r2 .r3 0x40302010), some (.ld8x2d .r1 .r2 .r3 0x40302010), some (.ld8x4d .r1 .r2 .r3 0x40302010),
      some (.st8x1d .r1 .r2 .r3 0x40302010), some (.st8x2d .r1 .r2 .r3 0x40302010), some (.st8x4d .r1 .r2 .r3 0x40302010),
      some (.ld16x1d .r1 .r2 .r3 0x40302010), some (.ld16x2d .r1 .r2 .r3 0x40302010), some (.ld16x4d .r1 .r2 .r3 0x40302010),
      some (.st16x1d .r1 .r2 .r3 0x40302010), some (.st16x2d .r1 .r2 .r3 0x40302010), some (.st16x4d .r1 .r2 .r3 0x40302010),
      some (.ld32x1d .r1 .r2 .r3 0x40302010), some (.ld32x2d .r1 .r2 .r3 0x40302010), some (.ld32x4d .r1 .r2 .r3 0x40302010),
      some (.st32x1d .r1 .r2 .r3 0x40302010), some (.st32x2d .r1 .r2 .r3 0x40302010), some (.st32x4d .r1 .r2 .r3 0x40302010)] := by
  decide

/-! ### Integer and float vectors -/

/-- 95_test_vectors A-ADD-1 to A-ADD-6. -/
theorem test_add_vectors :
    [alu 0x10 0x00000005 0xFFFFFFFF (fl 0 0 0 0 0),
      alu 0x10 0x7FFFFFFF 0x00000001 (fl 0 0 0 0 0),
      alu 0x10 0xFFFFFFFF 0x00000001 (fl 0 0 0 0 0),
      alu 0x10 0x80000000 0x80000000 (fl 0 0 0 0 0),
      alu 0x10 0x00000000 0x00000000 (fl 0 1 0 0 0),
      alu 0x10 0x12345678 0x11111111 (fl 0 0 0 0 0)] =
    [(0x00000004, fl 0 1 0 0 0, .none),
      (0x80000000, fl 0 0 1 1 0, .none),
      (0x00000000, fl 1 1 0 0 0, .none),
      (0x00000000, fl 1 1 1 0 0, .none),
      (0x00000000, fl 1 0 0 0 0, .none),
      (0x23456789, fl 0 0 0 0 0, .none)] := by
  decide

/-- 95_test_vectors A-ADC-1 to A-ADC-5. -/
theorem test_adc_vectors :
    [alu 0x11 0x7FFFFFFF 0x00000000 (fl 0 1 0 0 0),
      alu 0x11 0xFFFFFFFF 0x00000000 (fl 0 1 0 0 0),
      alu 0x11 0xFFFFFFFF 0xFFFFFFFF (fl 0 1 0 0 0),
      alu 0x11 0x00000001 0x00000002 (fl 0 0 0 0 0),
      alu 0x11 0x00000001 0x00000002 (fl 0 1 0 0 0)] =
    [(0x80000000, fl 0 0 1 1 0, .none),
      (0x00000000, fl 1 1 0 0 0, .none),
      (0xFFFFFFFF, fl 0 1 0 1 0, .none),
      (0x00000003, fl 0 0 0 0 0, .none),
      (0x00000004, fl 0 0 0 0 0, .none)] := by
  decide

/-- 95_test_vectors A-SUB-1 to A-SUB-7. -/
theorem test_sub_vectors :
    [alu 0x12 0x00000005 0x00000007 (fl 0 0 0 0 0),
      alu 0x12 0x00000005 0x00000005 (fl 0 0 0 0 0),
      alu 0x12 0x80000000 0x00000001 (fl 0 0 0 0 0),
      alu 0x12 0x00000000 0x00000001 (fl 0 0 0 0 0),
      alu 0x12 0x7FFFFFFF 0xFFFFFFFF (fl 0 0 0 0 0),
      alu 0x12 0x80000000 0x80000000 (fl 0 0 0 0 0),
      alu 0x12 0x00000007 0x00000005 (fl 0 1 0 0 0)] =
    [(0xFFFFFFFE, fl 0 1 1 1 0, .none),
      (0x00000000, fl 1 0 0 0 0, .none),
      (0x7FFFFFFF, fl 0 0 0 0 0, .none),
      (0xFFFFFFFF, fl 0 1 1 1 0, .none),
      (0x80000000, fl 0 1 0 1 0, .none),
      (0x00000000, fl 1 0 1 0 0, .none),
      (0x00000002, fl 0 0 0 0 0, .none)] := by
  decide

/-- 95_test_vectors A-SBB-1 to A-SBB-4. -/
theorem test_sbb_vectors :
    [alu 0x13 0x0000000A 0x00000003 (fl 0 1 0 0 0),
      alu 0x13 0x00000000 0x00000000 (fl 0 1 0 0 0),
      alu 0x13 0x00000000 0xFFFFFFFF (fl 0 1 0 0 0),
      alu 0x13 0x0000000A 0x00000003 (fl 0 0 0 0 0)] =
    [(0x00000006, fl 0 0 0 0 0, .none),
      (0xFFFFFFFF, fl 0 1 1 1 0, .none),
      (0x00000000, fl 1 1 0 0 0, .none),
      (0x00000007, fl 0 0 0 0 0, .none)] := by
  decide

/-- 95_test_vectors A-CMP-1 to A-CMP-5. -/
theorem test_cmp_vectors :
    [alu 0x14 0x00000005 0x00000007 (fl 0 0 0 0 0),
      alu 0x14 0x00000007 0x00000005 (fl 0 0 0 0 0),
      alu 0x14 0x00000005 0x00000005 (fl 0 0 0 0 0),
      alu 0x14 0x80000000 0x00000001 (fl 0 0 0 0 0),
      alu 0x14 0xFFFFFFFF 0x00000001 (fl 0 0 0 0 0)] =
    [(0x00000005, fl 0 1 1 1 0, .none),
      (0x00000007, fl 0 0 0 0 0, .none),
      (0x00000005, fl 1 0 0 0 0, .none),
      (0x80000000, fl 0 0 0 0 0, .none),
      (0xFFFFFFFF, fl 0 0 0 1 0, .none)] := by
  decide

/-- 95_test_vectors A-MUL-1 to A-MUL-4. -/
theorem test_mul_vectors :
    [alu 0x15 0x00000007 0xFFFFFFFD (fl 0 1 1 0 0),
      alu 0x15 0x00010000 0x00010000 (fl 0 0 0 0 0),
      alu 0x15 0xFFFFFFFF 0xFFFFFFFF (fl 0 0 0 0 0),
      alu 0x15 0x7FFFFFFF 0x00000002 (fl 0 0 0 0 0)] =
    [(0xFFFFFFEB, fl 0 1 1 1 0, .none),
      (0x00000000, fl 1 0 0 0 0, .none),
      (0x00000001, fl 0 0 0 0 0, .none),
      (0xFFFFFFFE, fl 0 0 0 1 0, .none)] := by
  decide

/-- 95_test_vectors A-UMUL-1 to A-UMUL-3. -/
theorem test_umul_vectors :
    [alu 0x16 0xFFFFFFFF 0x00000002 (fl 0 1 1 0 0),
      alu 0x16 0x00010000 0x00010000 (fl 0 0 0 0 0),
      alu 0x16 0xFFFFFFFF 0xFFFFFFFF (fl 0 0 0 0 0)] =
    [(0xFFFFFFFE, fl 0 1 1 1 0, .none),
      (0x00000000, fl 1 0 0 0 0, .none),
      (0x00000001, fl 0 0 0 0 0, .none)] := by
  decide

/-- 95_test_vectors A-DIV-1 to A-DIV-7. -/
theorem test_div_vectors :
    [alu 0x17 0x00000007 0x00000002 (fl 0 0 0 0 0),
      alu 0x17 0xFFFFFFF9 0x00000002 (fl 0 1 1 0 0),
      alu 0x17 0x00000007 0xFFFFFFFE (fl 0 0 0 0 0),
      alu 0x17 0xFFFFFFF9 0xFFFFFFFE (fl 0 0 0 0 0),
      alu 0x17 0x00000000 0x00000005 (fl 0 0 0 0 0),
      alu 0x17 0x80000000 0xFFFFFFFF (fl 0 0 0 0 0),
      alu 0x17 0x00000007 0x00000000 (fl 1 1 1 1 0)] =
    [(0x00000003, fl 0 0 0 0 0, .none),
      (0xFFFFFFFD, fl 0 1 0 1 0, .none),
      (0xFFFFFFFD, fl 0 0 0 1 0, .none),
      (0x00000003, fl 0 0 0 0 0, .none),
      (0x00000000, fl 1 0 0 0 0, .none),
      (0x80000000, fl 0 0 0 1 0, .none),
      (0x00000007, fl 1 1 1 1 0, .divideByZero)] := by
  decide

/-- 95_test_vectors A-UDIV-1 to A-UDIV-4. -/
theorem test_udiv_vectors :
    [alu 0x18 0xFFFFFFF9 0x00000002 (fl 0 0 0 0 0),
      alu 0x18 0x00000007 0xFFFFFFFE (fl 0 0 0 0 0),
      alu 0x18 0xFFFFFFFF 0x00000001 (fl 0 1 0 0 0),
      alu 0x18 0x00000001 0x00000000 (fl 0 0 0 0 0)] =
    [(0x7FFFFFFC, fl 0 0 0 0 0, .none),
      (0x00000000, fl 1 0 0 0 0, .none),
      (0xFFFFFFFF, fl 0 1 0 1 0, .none),
      (0x00000001, fl 0 0 0 0 0, .divideByZero)] := by
  decide

/-- 95_test_vectors A-REM-1 to A-REM-7. -/
theorem test_rem_vectors :
    [alu 0x19 0x00000007 0x00000002 (fl 0 0 0 0 0),
      alu 0x19 0xFFFFFFF9 0x00000002 (fl 0 0 0 0 0),
      alu 0x19 0x00000007 0xFFFFFFFE (fl 0 0 0 0 0),
      alu 0x19 0xFFFFFFF9 0xFFFFFFFE (fl 0 0 0 0 0),
      alu 0x19 0x80000000 0xFFFFFFFF (fl 0 0 0 0 0),
      alu 0x19 0x00000006 0x00000003 (fl 0 1 0 0 0),
      alu 0x19 0x00000006 0x00000000 (fl 0 0 0 0 0)] =
    [(0x00000001, fl 0 0 0 0 0, .none),
      (0xFFFFFFFF, fl 0 0 0 1 0, .none),
      (0x00000001, fl 0 0 0 0 0, .none),
      (0xFFFFFFFF, fl 0 0 0 1 0, .none),
      (0x00000000, fl 1 0 0 0 0, .none),
      (0x00000000, fl 1 1 0 0 0, .none),
      (0x00000006, fl 0 0 0 0 0, .divideByZero)] := by
  decide

/-- 95_test_vectors A-AND-1 to A-AND-2. -/
theorem test_and_vectors :
    [alu 0x1A 0xF0F0F0F0 0xFF00FF00 (fl 0 1 1 0 0),
      alu 0x1A 0xAAAAAAAA 0x55555555 (fl 0 0 0 0 0)] =
    [(0xF000F000, fl 0 0 0 1 0, .none),
      (0x00000000, fl 1 0 0 0 0, .none)] := by
  decide

/-- 95_test_vectors A-OR-1 to A-OR-2. -/
theorem test_or_vectors :
    [alu 0x1B 0xF0F0F0F0 0x0F0F0F0F (fl 0 1 1 0 0),
      alu 0x1B 0x00000000 0x00000000 (fl 0 0 0 0 0)] =
    [(0xFFFFFFFF, fl 0 0 0 1 0, .none),
      (0x00000000, fl 1 0 0 0 0, .none)] := by
  decide

/-- 95_test_vectors A-XOR-1 to A-XOR-2. -/
theorem test_xor_vectors :
    [alu 0x1C 0xAAAAAAAA 0x55555555 (fl 0 1 1 0 0),
      alu 0x1C 0x12345678 0x12345678 (fl 0 0 0 0 0)] =
    [(0xFFFFFFFF, fl 0 0 0 1 0, .none),
      (0x00000000, fl 1 0 0 0 0, .none)] := by
  decide

/-- 95_test_vectors A-SHR-1 to A-SHR-6. -/
theorem test_shr_vectors :
    [alu 0x1D 0x80000001 0x00000001 (fl 0 0 1 0 0),
      alu 0x1D 0x80000001 0x00000000 (fl 0 1 0 0 0),
      alu 0x1D 0x80000000 0x0000001F (fl 0 0 0 0 0),
      alu 0x1D 0x80000001 0x00000020 (fl 0 0 0 0 0),
      alu 0x1D 0xFFFFFFFF 0x00000021 (fl 0 0 0 0 0),
      alu 0x1D 0x00000001 0x00000001 (fl 0 0 0 0 0)] =
    [(0x40000000, fl 0 1 0 0 0, .none),
      (0x80000001, fl 0 0 0 1 0, .none),
      (0x00000001, fl 0 0 0 0 0, .none),
      (0x80000001, fl 0 0 0 1 0, .none),
      (0x7FFFFFFF, fl 0 1 0 0 0, .none),
      (0x00000000, fl 1 1 0 0 0, .none)] := by
  decide

/-- 95_test_vectors A-SAR-1 to A-SAR-4. -/
theorem test_sar_vectors :
    [alu 0x1E 0x80000001 0x00000001 (fl 0 0 0 0 0),
      alu 0x1E 0x80000000 0x0000001F (fl 0 0 0 0 0),
      alu 0x1E 0x7FFFFFFF 0x0000001F (fl 0 0 0 0 0),
      alu 0x1E 0xFFFFFFFF 0x00000000 (fl 0 1 0 0 0)] =
    [(0xC0000000, fl 0 1 0 1 0, .none),
      (0xFFFFFFFF, fl 0 0 0 1 0, .none),
      (0x00000000, fl 1 1 0 0 0, .none),
      (0xFFFFFFFF, fl 0 0 0 1 0, .none)] := by
  decide

/-- 95_test_vectors A-SHL-1 to A-SHL-5. -/
theorem test_shl_vectors :
    [alu 0x1F 0x80000001 0x00000001 (fl 0 0 0 0 0),
      alu 0x1F 0x00000003 0x0000001F (fl 0 0 0 0 0),
      alu 0x1F 0x00000001 0x00000020 (fl 0 0 0 0 0),
      alu 0x1F 0x40000000 0x00000001 (fl 0 0 0 0 0),
      alu 0x1F 0xFFFFFFFF 0x00000004 (fl 0 0 0 0 0)] =
    [(0x00000002, fl 0 1 0 0 0, .none),
      (0x80000000, fl 0 1 0 1 0, .none),
      (0x00000001, fl 0 0 0 0 0, .none),
      (0x80000000, fl 0 0 0 1 0, .none),
      (0xFFFFFFF0, fl 0 1 0 1 0, .none)] := by
  decide

/-- 95_test_vectors A-ROL-1 to A-ROL-4. -/
theorem test_rol_vectors :
    [alu 0x20 0x12345678 0x00000008 (fl 0 1 1 0 0),
      alu 0x20 0x80000000 0x00000001 (fl 0 0 0 0 0),
      alu 0x20 0x12345678 0x00000000 (fl 0 0 0 0 0),
      alu 0x20 0x12345678 0x00000020 (fl 0 0 0 0 0)] =
    [(0x34567812, fl 0 0 0 0 0, .none),
      (0x00000001, fl 0 0 0 0 0, .none),
      (0x12345678, fl 0 0 0 0 0, .none),
      (0x12345678, fl 0 0 0 0 0, .none)] := by
  decide

/-- 95_test_vectors A-ROR-1 to A-ROR-3. -/
theorem test_ror_vectors :
    [alu 0x21 0x00000001 0x00000001 (fl 0 0 0 0 0),
      alu 0x21 0x12345678 0x00000008 (fl 0 1 0 0 0),
      alu 0x21 0x00000000 0x00000005 (fl 0 0 0 0 0)] =
    [(0x80000000, fl 0 0 0 1 0, .none),
      (0x78123456, fl 0 0 0 0 0, .none),
      (0x00000000, fl 1 0 0 0 0, .none)] := by
  decide

/-- 95_test_vectors F-FADD, the vectors with a number for a result. -/
theorem test_fadd_vectors :
    [alu 0x28 0x3FC00000 0x40100000 (fl 1 1 1 0 0),
      alu 0x28 0x3F800000 0xBF800000 (fl 1 1 1 0 0),
      alu 0x28 0x7F7FFFFF 0x7F7FFFFF (fl 1 1 1 0 0),
      alu 0x28 0x3F800000 0x33800000 (fl 1 1 1 0 0),
      alu 0x28 0x3F800001 0x33800000 (fl 1 1 1 0 0),
      alu 0x28 0xBF800000 0xC0000000 (fl 1 1 1 0 0),
      alu 0x28 0x00000001 0x00000001 (fl 1 1 1 0 0)] =
    [(0x40700000, fl 0 0 0 0 0, .none),
      (0x00000000, fl 0 0 0 0 0, .none),
      (0x7F800000, fl 0 0 0 0 0, .none),
      (0x3F800000, fl 0 0 0 0 0, .none),
      (0x3F800002, fl 0 0 0 0 0, .none),
      (0xC0400000, fl 0 0 0 1 0, .none),
      (0x00000002, fl 0 0 0 0 0, .none)] := by
  decide

/-- 95_test_vectors F-FADD, the vectors with a NaN for a result: the value is `nan`, the flags are as written. -/
theorem test_fadd_nan :
    [f32Add (f32 0x7F800000) (f32 0xFF800000)] = [.nan] ∧
    [(alu 0x28 0x7F800000 0xFF800000 (fl 1 1 1 0 0)).2.1] = [fl 0 0 0 0 0] := by
  decide

/-- 95_test_vectors F-FSUB, the vectors with a number for a result. -/
theorem test_fsub_vectors :
    [alu 0x29 0x3F800000 0x40200000 (fl 1 1 1 0 0),
      alu 0x29 0x40200000 0x40200000 (fl 1 1 1 0 0),
      alu 0x29 0x80000000 0x00000000 (fl 1 1 1 0 0)] =
    [(0xBFC00000, fl 0 0 0 1 0, .none),
      (0x00000000, fl 0 0 0 0 0, .none),
      (0x80000000, fl 0 0 0 0 0, .none)] := by
  decide

/-- 95_test_vectors F-FSUB, the vectors with a NaN for a result: the value is `nan`, the flags are as written. -/
theorem test_fsub_nan :
    [f32Sub (f32 0x7FC00000) (f32 0x3F800000)] = [.nan] ∧
    [(alu 0x29 0x7FC00000 0x3F800000 (fl 1 1 1 0 0)).2.1] = [fl 0 0 0 0 0] := by
  decide

/-- 95_test_vectors F-FMUL, the vectors with a number for a result. -/
theorem test_fmul_vectors :
    [alu 0x2A 0x40400000 0xBF000000 (fl 1 1 1 0 0),
      alu 0x2A 0x80000000 0x40A00000 (fl 1 1 1 0 0),
      alu 0x2A 0x00800000 0x3F000000 (fl 1 1 1 0 0),
      alu 0x2A 0xFF800000 0x40000000 (fl 1 1 1 0 0)] =
    [(0xBFC00000, fl 0 0 0 1 0, .none),
      (0x80000000, fl 0 0 0 0 0, .none),
      (0x00400000, fl 0 0 0 0 0, .none),
      (0xFF800000, fl 0 0 0 1 0, .none)] := by
  decide

/-- 95_test_vectors F-FMUL, the vectors with a NaN for a result: the value is `nan`, the flags are as written. -/
theorem test_fmul_nan :
    [f32Mul (f32 0x00000000) (f32 0x7F800000)] = [.nan] ∧
    [(alu 0x2A 0x00000000 0x7F800000 (fl 1 1 1 0 0)).2.1] = [fl 0 0 0 0 0] := by
  decide

/-- 95_test_vectors F-FDIV, the vectors with a number for a result. -/
theorem test_fdiv_vectors :
    [alu 0x2B 0x3F800000 0x40400000 (fl 1 1 1 0 0),
      alu 0x2B 0x3F800000 0x00000000 (fl 1 1 1 0 0),
      alu 0x2B 0xBF800000 0x00000000 (fl 1 1 1 0 0),
      alu 0x2B 0x3F800000 0x80000000 (fl 1 1 1 0 0)] =
    [(0x3EAAAAAB, fl 0 0 0 0 0, .none),
      (0x7F800000, fl 0 0 0 0 0, .none),
      (0xFF800000, fl 0 0 0 1 0, .none),
      (0xFF800000, fl 0 0 0 1 0, .none)] := by
  decide

/-- 95_test_vectors F-FDIV, the vectors with a NaN for a result: the value is `nan`, the flags are as written. -/
theorem test_fdiv_nan :
    [f32Div (f32 0x00000000) (f32 0x00000000), f32Div (f32 0x7F800000) (f32 0x7F800000)] = [.nan, .nan] ∧
    [(alu 0x2B 0x00000000 0x00000000 (fl 1 1 1 0 0)).2.1, (alu 0x2B 0x7F800000 0x7F800000 (fl 1 1 1 0 0)).2.1] = [fl 0 0 0 0 0, fl 0 0 0 0 0] := by
  decide

/-- 95_test_vectors F-FCMP, the vectors with a number for a result. -/
theorem test_fcmp_vectors :
    [alu 0x2C 0x3F800000 0x40000000 (fl 1 1 1 0 0),
      alu 0x2C 0x40000000 0x3F800000 (fl 1 1 1 0 0),
      alu 0x2C 0x40000000 0x40000000 (fl 1 1 1 0 0),
      alu 0x2C 0x7FC00000 0x3F800000 (fl 1 1 1 0 0),
      alu 0x2C 0x80000000 0x00000000 (fl 1 1 1 0 0),
      alu 0x2C 0xFF800000 0x7F800000 (fl 1 1 1 0 0),
      alu 0x2C 0x00000001 0x00000002 (fl 1 1 1 0 0)] =
    [(0x3F800000, fl 0 0 0 1 0, .none),
      (0x40000000, fl 0 0 0 0 0, .none),
      (0x40000000, fl 0 0 0 0 0, .none),
      (0x7FC00000, fl 0 0 0 0 0, .none),
      (0x80000000, fl 0 0 0 0 0, .none),
      (0xFF800000, fl 0 0 0 1 0, .none),
      (0x00000001, fl 0 0 0 1 0, .none)] := by
  decide

/-! ### Moves -/

/-- 95_test_vectors M-5, M-7 and M-14. -/
theorem test_load_addresses :
    [(run1 (mst [0xA6, 0x88, 0x10, 0, 0, 0])).regs.r1,
      (run1 (also (mst [0x85, 0x88, 0xFA, 0xDF, 0xFF, 0xFF]) 0 [0x5A])).regs.r1,
      (run1 (also (st (rs 0 0x10 0x80000004 0 0 0) Flags.zero [0xA1, 0x88]) 0x18 [0xC0, 0xC1, 0xC2, 0xC3])).regs.r1] =
    [0x9F9E9D9C, 0x5A, 0xC3C2C1C0] := by
  decide

/-- 95_test_vectors M-13: the access wraps past the top of the address space. -/
theorem test_load_wraps :
    (run1 (also (st (rs 0 0xFFFFFFFE 0 0 0 0) Flags.zero [0xA0, 0x88]) 0xFFFFFFFE [0x11, 0x22, 0x33, 0x44])).regs.r1 =
      0x44332211 := by
  decide

/-- 95_test_vectors M-11 and M-12. -/
theorem test_store_addresses :
    [diff [0xAC, 0x88, 0x00, 0x01, 0, 0], diff [0x8E, 0x88, 0xF4, 0xFF, 0xFF, 0xFF]] =
      [[(0x2103, 0xD4), (0x2104, 0xC3), (0x2105, 0xB2), (0x2106, 0xA1)], [(0x2000, 0xD4)]] := by
  decide

/-- 95_test_vectors M-20 to M-26. -/
theorem test_register_moves :
    (run1 (st (rs 1 0xDEADBEEF 0 0 0 0) (fl 1 1 1 1 1) [0x30, 0x08])).regs.r1 = 0xDEADBEEF ∧
      (run1 (st (rs 1 0xDEADBEEF 0 0 0 0) (fl 1 1 1 1 1) [0x30, 0x08])).flags = fl 1 1 1 1 1 ∧
      (run1 (st z0 Flags.zero [0x31, 0xFD, 0x00, 0x80, 0, 0])).regs = rs 0 0 0 0 0 0x8000 ∧
      (run1 (st z0 Flags.zero [0x31, 0x06, 0x00, 0x30, 0, 0])).pc = 0x3000 ∧
      (run1 (st (rs 0x55 0 0 0 0 0) Flags.zero [0x30, 0x38])).regs.r1 = 0 ∧
      (run1 (st z0 Flags.zero [0x30, 0x30])).regs.r1 = 0x1002 := by
  decide

/-- 95_test_vectors M-24: a write of register 7 is discarded. -/
theorem test_move_to_zero :
    (run1 (st (rs 1 2 3 4 5 6) Flags.zero [0x31, 0x07, 0x11, 0x11, 0x11, 0x11])).regs = rs 1 2 3 4 5 6 ∧
      (run1 (st (rs 1 2 3 4 5 6) Flags.zero [0x31, 0x07, 0x11, 0x11, 0x11, 0x11])).pc = 0x1006 := by
  decide

/-- 95_test_vectors M-27 to M-29. -/
theorem test_moves_of_special_registers :
    (run1 (also (st (rs 4 0x2000 0 0 0 0) Flags.zero [0xA0, 0x0E]) 0x2004 [0x00, 0x40, 0, 0])).pc = 0x4000 ∧
      bytesAt (run1 (st z0 Flags.zero [0xA8, 0x37, 0x11, 0x22, 0x33, 0x44])) 0x1002 4 = [0, 0, 0, 0] ∧
      (run1 (also (st (rs 0x2000 0 0 0 0 0) Flags.zero [0x80, 0x00]) 0x4000 [0x7F])).regs.r1 = 0x7F := by
  decide

/-- The worked examples of 42_moves R167 to R196, in opcode order, for each of the eighteen loads. -/
theorem test_loads :
    [(run1 (mst [0x80, 0x88])).regs.r1,
      (run1 (mst [0x81, 0x88])).regs.r1,
      (run1 (mst [0x82, 0x88])).regs.r1,
      (run1 (mst [0x84, 0x88, 0xFF, 0xFF, 0xFF, 0xFF])).regs.r1,
      (run1 (mst [0x85, 0x88, 0xFF, 0xFF, 0xFF, 0xFF])).regs.r1,
      (run1 (mst [0x86, 0x88, 0xFF, 0xFF, 0xFF, 0xFF])).regs.r1,
      (run1 (mst [0x90, 0x88])).regs.r1,
      (run1 (mst [0x91, 0x88])).regs.r1,
      (run1 (mst [0x92, 0x88])).regs.r1,
      (run1 (mst [0x94, 0x88, 0xFF, 0xFF, 0xFF, 0xFF])).regs.r1,
      (run1 (mst [0x95, 0x88, 0xFF, 0xFF, 0xFF, 0xFF])).regs.r1,
      (run1 (mst [0x96, 0x88, 0xFF, 0xFF, 0xFF, 0xFF])).regs.r1,
      (run1 (mst [0xA0, 0x88])).regs.r1,
      (run1 (mst [0xA1, 0x88])).regs.r1,
      (run1 (mst [0xA2, 0x88])).regs.r1,
      (run1 (mst [0xA4, 0x88, 0xFF, 0xFF, 0xFF, 0xFF])).regs.r1,
      (run1 (mst [0xA5, 0x88, 0xFF, 0xFF, 0xFF, 0xFF])).regs.r1,
      (run1 (mst [0xA6, 0x88, 0xFF, 0xFF, 0xFF, 0xFF])).regs.r1] =
    [0x83#32, 0x86#32, 0x8C#32, 0x82#32, 0x85#32, 0x8B#32, 0x8483#32, 0x8786#32, 0x8D8C#32, 0x8382#32, 0x8685#32, 0x8C8B#32, 0x86858483#32, 0x89888786#32, 0x8F8E8D8C#32, 0x85848382#32, 0x88878685#32, 0x8E8D8C8B#32] := by
  decide

/-- The worked examples of 42_moves R173 to R202, in opcode order, for each of the eighteen stores: the bytes of memory
that changed. -/
theorem test_stores :
    [diff [0x88, 0x88],
      diff [0x89, 0x88],
      diff [0x8A, 0x88],
      diff [0x8C, 0x88, 0xFF, 0xFF, 0xFF, 0xFF],
      diff [0x8D, 0x88, 0xFF, 0xFF, 0xFF, 0xFF],
      diff [0x8E, 0x88, 0xFF, 0xFF, 0xFF, 0xFF],
      diff [0x98, 0x88],
      diff [0x99, 0x88],
      diff [0x9A, 0x88],
      diff [0x9C, 0x88, 0xFF, 0xFF, 0xFF, 0xFF],
      diff [0x9D, 0x88, 0xFF, 0xFF, 0xFF, 0xFF],
      diff [0x9E, 0x88, 0xFF, 0xFF, 0xFF, 0xFF],
      diff [0xA8, 0x88],
      diff [0xA9, 0x88],
      diff [0xAA, 0x88],
      diff [0xAC, 0x88, 0xFF, 0xFF, 0xFF, 0xFF],
      diff [0xAD, 0x88, 0xFF, 0xFF, 0xFF, 0xFF],
      diff [0xAE, 0x88, 0xFF, 0xFF, 0xFF, 0xFF]] =
    [[(0x2003, 0xD4)],
      [(0x2006, 0xD4)],
      [(0x200C, 0xD4)],
      [(0x2002, 0xD4)],
      [(0x2005, 0xD4)],
      [(0x200B, 0xD4)],
      [(0x2003, 0xD4), (0x2004, 0xC3)],
      [(0x2006, 0xD4), (0x2007, 0xC3)],
      [(0x200C, 0xD4), (0x200D, 0xC3)],
      [(0x2002, 0xD4), (0x2003, 0xC3)],
      [(0x2005, 0xD4), (0x2006, 0xC3)],
      [(0x200B, 0xD4), (0x200C, 0xC3)],
      [(0x2003, 0xD4), (0x2004, 0xC3), (0x2005, 0xB2), (0x2006, 0xA1)],
      [(0x2006, 0xD4), (0x2007, 0xC3), (0x2008, 0xB2), (0x2009, 0xA1)],
      [(0x200C, 0xD4), (0x200D, 0xC3), (0x200E, 0xB2), (0x200F, 0xA1)],
      [(0x2002, 0xD4), (0x2003, 0xC3), (0x2004, 0xB2), (0x2005, 0xA1)],
      [(0x2005, 0xD4), (0x2006, 0xC3), (0x2007, 0xB2), (0x2008, 0xA1)],
      [(0x200B, 0xD4), (0x200C, 0xC3), (0x200D, 0xB2), (0x200E, 0xA1)]] := by
  decide

/-! ### Control transfer -/

/-- 43_control R217 and the worked examples of R221 to R243: for each condition in the table's order, taken then not
taken, displacement 32. -/
theorem test_conditional_jumps16 :
    [(run1 (st z0 (fl 1 0 0 0 0) [0x42, 0x20, 0x00])).pc, (run1 (st z0 (fl 0 1 1 1 0) [0x42, 0x20, 0x00])).pc,
      (run1 (st z0 (fl 0 1 1 1 0) [0x44, 0x20, 0x00])).pc, (run1 (st z0 (fl 1 0 0 0 0) [0x44, 0x20, 0x00])).pc,
      (run1 (st z0 (fl 0 1 1 0 0) [0x46, 0x20, 0x00])).pc, (run1 (st z0 (fl 0 0 0 1 0) [0x46, 0x20, 0x00])).pc,
      (run1 (st z0 (fl 1 1 1 0 0) [0x48, 0x20, 0x00])).pc, (run1 (st z0 (fl 0 0 0 1 0) [0x48, 0x20, 0x00])).pc,
      (run1 (st z0 (fl 0 0 0 1 0) [0x4A, 0x20, 0x00])).pc, (run1 (st z0 (fl 1 1 1 0 0) [0x4A, 0x20, 0x00])).pc,
      (run1 (st z0 (fl 1 0 0 0 0) [0x4C, 0x20, 0x00])).pc, (run1 (st z0 (fl 0 1 1 0 0) [0x4C, 0x20, 0x00])).pc,
      (run1 (st z0 (fl 0 0 1 1 0) [0x4E, 0x20, 0x00])).pc, (run1 (st z0 (fl 1 0 0 0 0) [0x4E, 0x20, 0x00])).pc,
      (run1 (st z0 (fl 1 0 1 1 0) [0x50, 0x20, 0x00])).pc, (run1 (st z0 (fl 0 1 0 0 0) [0x50, 0x20, 0x00])).pc,
      (run1 (st z0 (fl 0 1 0 0 0) [0x52, 0x20, 0x00])).pc, (run1 (st z0 (fl 1 0 1 1 0) [0x52, 0x20, 0x00])).pc,
      (run1 (st z0 (fl 1 0 0 0 0) [0x54, 0x20, 0x00])).pc, (run1 (st z0 (fl 0 0 1 1 0) [0x54, 0x20, 0x00])).pc,
      (run1 (st z0 (fl 0 0 1 0 0) [0x56, 0x20, 0x00])).pc, (run1 (st z0 (fl 1 1 0 1 0) [0x56, 0x20, 0x00])).pc,
      (run1 (st z0 (fl 1 1 0 1 0) [0x58, 0x20, 0x00])).pc, (run1 (st z0 (fl 0 0 1 0 0) [0x58, 0x20, 0x00])).pc] =
    (List.replicate 12 [0x1023#32, 0x1003#32]).flatten := by
  decide

/-- The same for the 32-bit forms (R222 to R244), displacement -16. -/
theorem test_conditional_jumps32 :
    [(run1 (st z0 (fl 1 0 0 0 0) [0x43, 0xF0, 0xFF, 0xFF, 0xFF])).pc, (run1 (st z0 (fl 0 1 1 1 0) [0x43, 0xF0, 0xFF, 0xFF, 0xFF])).pc,
      (run1 (st z0 (fl 0 1 1 1 0) [0x45, 0xF0, 0xFF, 0xFF, 0xFF])).pc, (run1 (st z0 (fl 1 0 0 0 0) [0x45, 0xF0, 0xFF, 0xFF, 0xFF])).pc,
      (run1 (st z0 (fl 0 1 1 0 0) [0x47, 0xF0, 0xFF, 0xFF, 0xFF])).pc, (run1 (st z0 (fl 0 0 0 1 0) [0x47, 0xF0, 0xFF, 0xFF, 0xFF])).pc,
      (run1 (st z0 (fl 1 1 1 0 0) [0x49, 0xF0, 0xFF, 0xFF, 0xFF])).pc, (run1 (st z0 (fl 0 0 0 1 0) [0x49, 0xF0, 0xFF, 0xFF, 0xFF])).pc,
      (run1 (st z0 (fl 0 0 0 1 0) [0x4B, 0xF0, 0xFF, 0xFF, 0xFF])).pc, (run1 (st z0 (fl 1 1 1 0 0) [0x4B, 0xF0, 0xFF, 0xFF, 0xFF])).pc,
      (run1 (st z0 (fl 1 0 0 0 0) [0x4D, 0xF0, 0xFF, 0xFF, 0xFF])).pc, (run1 (st z0 (fl 0 1 1 0 0) [0x4D, 0xF0, 0xFF, 0xFF, 0xFF])).pc,
      (run1 (st z0 (fl 0 0 1 1 0) [0x4F, 0xF0, 0xFF, 0xFF, 0xFF])).pc, (run1 (st z0 (fl 1 0 0 0 0) [0x4F, 0xF0, 0xFF, 0xFF, 0xFF])).pc,
      (run1 (st z0 (fl 1 0 1 1 0) [0x51, 0xF0, 0xFF, 0xFF, 0xFF])).pc, (run1 (st z0 (fl 0 1 0 0 0) [0x51, 0xF0, 0xFF, 0xFF, 0xFF])).pc,
      (run1 (st z0 (fl 0 1 0 0 0) [0x53, 0xF0, 0xFF, 0xFF, 0xFF])).pc, (run1 (st z0 (fl 1 0 1 1 0) [0x53, 0xF0, 0xFF, 0xFF, 0xFF])).pc,
      (run1 (st z0 (fl 1 0 0 0 0) [0x55, 0xF0, 0xFF, 0xFF, 0xFF])).pc, (run1 (st z0 (fl 0 0 1 1 0) [0x55, 0xF0, 0xFF, 0xFF, 0xFF])).pc,
      (run1 (st z0 (fl 0 0 1 0 0) [0x57, 0xF0, 0xFF, 0xFF, 0xFF])).pc, (run1 (st z0 (fl 1 1 0 1 0) [0x57, 0xF0, 0xFF, 0xFF, 0xFF])).pc,
      (run1 (st z0 (fl 1 1 0 1 0) [0x59, 0xF0, 0xFF, 0xFF, 0xFF])).pc, (run1 (st z0 (fl 0 0 1 0 0) [0x59, 0xF0, 0xFF, 0xFF, 0xFF])).pc] =
    (List.replicate 12 [0xFF5#32, 0x1005#32]).flatten := by
  decide

/-- 95_test_vectors J-1 to J-5. -/
theorem test_jump_targets :
    [(run1 (st z0 Flags.zero [0x41, 0xFB, 0xFF, 0xFF, 0xFF])).pc, (run1 (st z0 Flags.zero [0x40, 0xFD, 0xFF])).pc,
      (run1 (st z0 Flags.zero [0x40, 0xFF, 0x7F])).pc, (run1 (st z0 Flags.zero [0x40, 0x00, 0x80])).pc,
      (run1 (st z0 Flags.zero [0x41, 0, 0, 0, 0])).pc] = [0x1000, 0x1000, 0x9002, 0xFFFF9003, 0x1005] := by
  decide

/-- 95_test_vectors J-6: `pc` wraps in the fetch. -/
theorem test_jump_wraps :
    (run1 (also ((st z0 Flags.zero []).withPc 0xFFFFFFFB) 0xFFFFFFFB [0x41, 0x10, 0, 0, 0])).pc = 0x10 := by
  decide

/-- 95_test_vectors J-7 to J-10. -/
theorem test_register_jumps :
    [(run1 (st (rs 0x2000 0 0 0 0 0) Flags.zero [0x0A, 0x00])).pc,
      (run1 (st (rs 0x2000 0 0 0 0 0) Flags.zero [0x0A, 0xF8])).pc,
      (run1 (st z0 Flags.zero [0x0A, 0x06])).pc, (run1 (st z0 Flags.zero [0x0A, 0x07])).pc] =
    [0x2000, 0x2000, 0x1002, 0] := by
  decide

/-- The state before 95_test_vectors J-11 and J-12. -/
def callState (bytes : List Byte) : State := st (rs 0 0 0 0 0 0x8000) (fl 1 0 0 0 1) bytes

/-- 95_test_vectors J-11. -/
theorem test_call32 :
    (run1 (callState [0x5B, 0x00, 0x01, 0, 0])).pc = 0x1105 ∧
      (run1 (callState [0x5B, 0x00, 0x01, 0, 0])).regs = rs 0 0 0 0 0 0x8004 ∧
      bytesAt (run1 (callState [0x5B, 0x00, 0x01, 0, 0])) 0x8004 4 = [0x05, 0x10, 0, 0] ∧
      (run1 (callState [0x5B, 0x00, 0x01, 0, 0])).flags = fl 1 0 0 0 1 := by
  decide

/-- 95_test_vectors J-12. -/
theorem test_call16 :
    (run1 (callState [0x5A, 0xF0, 0xFF])).pc = 0x0FF3 ∧
      bytesAt (run1 (callState [0x5A, 0xF0, 0xFF])) 0x8004 4 = [0x03, 0x10, 0, 0] := by
  decide

/-- The state before 95_test_vectors J-13. -/
def retState : State := also (st (rs 0 0 0 0 0 0x8004) (fl 0 1 0 0 0) [0x02]) 0x8004 [0x05, 0x10, 0, 0]

/-- 95_test_vectors J-13. -/
theorem test_ret :
    (run1 retState).pc = 0x1005 ∧ (run1 retState).regs = rs 0 0 0 0 0 0x8000 ∧ (run1 retState).flags = fl 0 1 0 0 0 := by
  decide

/-- The state before 95_test_vectors J-14. -/
def callFaults : State := only (st (rs 0 0 0 0 0 0x8FFD) (fl 1 0 0 0 1) [0x5B, 0x00, 0x01, 0, 0]) twoRanges

/-- 95_test_vectors J-14: SP advanced, the jump not made, nothing written. -/
theorem test_call_fault :
    ended (run1 callFaults) = (.unmappedAddress, 0x9001, .halted, 0x1005) ∧
      (run1 callFaults).regs = rs 0 0 0 0 0 0x9001 ∧ (run1 callFaults).mem = callFaults.mem := by
  decide

/-! ### Stack -/

/-- The state before 95_test_vectors K-1. -/
def pushState : State := st (rs 0x11223344 0 0 0 0 0x8000) (fl 1 1 1 1 1) [0x08, 0x00]

/-- 95_test_vectors K-1. -/
theorem test_push :
    (run1 pushState).regs = rs 0x11223344 0 0 0 0 0x8004 ∧
      bytesAt (run1 pushState) 0x8004 4 = [0x44, 0x33, 0x22, 0x11] ∧ (run1 pushState).flags = Flags.zero := by
  decide

/-- 95_test_vectors K-4, K-10 and K-11: the old SP, `pc`, and SP wrapping. -/
theorem test_push_special :
    bytesAt (run1 (st (rs 0 0 0 0 0 0x8000) Flags.zero [0x08, 0x05])) 0x8004 4 = [0x00, 0x80, 0, 0] ∧
      bytesAt (run1 (st (rs 0 0 0 0 0 0x8000) Flags.zero [0x08, 0x06])) 0x8004 4 = [0x02, 0x10, 0, 0] ∧
      (run1 (st (rs 1 0 0 0 0 0xFFFFFFFE) Flags.zero [0x08, 0x00])).regs.sp = 2 ∧
      bytesAt (run1 (st (rs 1 0 0 0 0 0xFFFFFFFE) Flags.zero [0x08, 0x00])) 2 4 = [1, 0, 0, 0] := by
  decide

/-- A pop with the given word on the stack. -/
def popState (modrr : Byte) (word : List Byte) : State :=
  also (st (rs 0 0 0 0 0 0x8004) (fl 0 1 0 1 0) [0x09, modrr]) 0x8004 word

/-- 95_test_vectors K-2, K-7, K-8 and K-9. -/
theorem test_pop :
    (run1 (popState 0x01 [0x44, 0x33, 0x22, 0x11])).regs = rs 0 0x11223344 0 0 0 0x8000 ∧
      (run1 (popState 0x01 [0x44, 0x33, 0x22, 0x11])).flags = Flags.zero ∧
      (run1 (popState 0x05 [0x00, 0x90, 0, 0])).regs = rs 0 0 0 0 0 0x9000 ∧
      (run1 (popState 0x06 [0x34, 0x12, 0, 0])).pc = 0x1234 ∧
      (run1 (popState 0x07 [0x34, 0x12, 0, 0])).regs = rs 0 0 0 0 0 0x8000 := by
  decide

/-- 95_test_vectors K-5 and K-6. -/
theorem test_pushf_popf :
    bytesAt (run1 (st (rs 0 0 0 0 0 0x8000) (fl 1 0 1 0 1) [0x03])) 0x8001 1 = [0x15] ∧
      (run1 (st (rs 0 0 0 0 0 0x8000) (fl 1 0 1 0 1) [0x03])).regs.sp = 0x8001 ∧
      (run1 (st (rs 0 0 0 0 0 0x8000) (fl 1 0 1 0 1) [0x03])).flags = fl 1 0 1 0 1 ∧
      (run1 (also (st (rs 0 0 0 0 0 0x8001) (fl 1 0 1 0 1) [0x04]) 0x8001 [0xEA])).regs.sp = 0x8000 ∧
      (run1 (also (st (rs 0 0 0 0 0 0x8001) (fl 1 0 1 0 1) [0x04]) 0x8001 [0xEA])).flags = fl 0 1 0 1 0 := by
  decide

/-- The state before 95_test_vectors K-12. -/
def pushFaults : State := only (st (rs 1 0 0 0 0 0x8FFD) (fl 0 1 0 0 1) [0x08, 0x00]) twoRanges

/-- The state before 95_test_vectors K-13. -/
def popFaults : State := only (st (rs 7 0 0 0 0 0x9000) (fl 0 1 0 0 0) [0x09, 0x00]) twoRanges

/-- 95_test_vectors K-12 and K-13. -/
theorem test_stack_faults :
    ended (run1 pushFaults) = (.unmappedAddress, 0x9001, .halted, 0x1002) ∧
      (run1 pushFaults).regs = rs 1 0 0 0 0 0x9001 ∧ (run1 pushFaults).flags = fl 0 1 0 0 1 ∧
      ended (run1 popFaults) = (.unmappedAddress, 0x9000, .halted, 0x1002) ∧
      (run1 popFaults).regs = rs 7 0 0 0 0 0x9000 ∧ (run1 popFaults).flags = fl 0 1 0 0 0 := by
  decide

/-- The last two steps of 95_test_vectors K-14: the flags byte lies over byte 1 of the word. -/
theorem test_flags_byte_overlaps_the_word :
    (run1 (also (st (rs 0 0 0 0 0 0x8004) Flags.zero [0x09, 0x01]) 0x8004 [0x44, 0x0A, 0x22, 0x11])).regs.r2 =
      0x11220A44 := by
  decide

/-! ### System -/

/-- 95_test_vectors Y-1. -/
theorem test_halt :
    ended (run1 (st z0 (fl 1 0 0 0 1) [0x01])) = (.none, 0, .halted, 0x1001) ∧
      (run1 (st z0 (fl 1 0 0 0 1) [0x01])).flags = fl 1 0 0 0 1 ∧
      run1 (run1 (st z0 (fl 1 0 0 0 1) [0x01])) = run1 (st z0 (fl 1 0 0 0 1) [0x01]) := by
  decide

/-- 95_test_vectors Y-2 to Y-8. -/
theorem test_setf_clrf :
    [(run1 (st z0 (fl 1 0 0 0 0) [0x06, 0x04])).flags, (run1 (st z0 Flags.zero [0x06, 0x00])).flags,
      (run1 (st z0 (fl 1 0 0 0 1) [0x07, 0x00])).flags, (run1 (st z0 (fl 0 0 0 1 1) [0x07, 0x04])).flags,
      (run1 (st z0 Flags.zero [0x06, 0x01])).flags, (run1 (st z0 Flags.zero [0x06, 0x02])).flags,
      (run1 (st z0 Flags.zero [0x06, 0x03])).flags] =
    [fl 1 0 0 0 1, fl 1 0 0 0 0, fl 0 0 0 0 1, fl 0 0 0 1 0, fl 0 1 0 0 0, fl 0 0 1 0 0, fl 0 0 0 1 0] := by
  decide

/-- 95_test_vectors Y-9 and Y-10. -/
theorem test_flag_index_faults :
    ended (run1 (st z0 (fl 1 0 0 0 0) [0x06, 0x05])) = (.unknownOpcode, 6, .halted, 0x1002) ∧
      (run1 (st z0 (fl 1 0 0 0 0) [0x06, 0x05])).flags = fl 1 0 0 0 0 ∧
      ended (run1 (st z0 Flags.zero [0x07, 0x0C])) = (.unknownOpcode, 7, .halted, 0x1002) := by
  decide

/-- 95_test_vectors Y-11: one hook call; what the hook does is open. -/
theorem test_int : (run1 (st z0 Flags.zero [0x05, 0x21])).hookCalls = [0x21] := by decide

/-! ### Faults -/

/-- 95_test_vectors X-1 to X-3. -/
theorem test_unknown_opcodes :
    ended (run1 (st z0 Flags.zero [0x00])) = (.unknownOpcode, 0, .halted, 0x1001) ∧
      ended (run1 (st z0 Flags.zero [0xFF])) = (.unknownOpcode, 0xFF, .halted, 0x1001) ∧
      ([0x0B, 0x22, 0x32, 0x5C, 0x83, 0x87, 0xAF, 0xB0] : List Byte).map (fun op => ended (run1 (st z0 Flags.zero [op]))) =
        ([0x0B, 0x22, 0x32, 0x5C, 0x83, 0x87, 0xAF, 0xB0] : List Byte).map
          (fun op => (.unknownOpcode, op.setWidth 32, .halted, 0x1001)) := by
  decide

/-- 95_test_vectors X-4 to X-6. -/
theorem test_fetch_faults :
    ended (run1 (only (st z0 Flags.zero [0x10]) [⟨0x1000, 1⟩])) = (.unmappedAddress, 0x1001, .halted, 0x1001) ∧
      ended (run1 (only (st z0 Flags.zero []) [⟨0x2000, 1⟩])) = (.unmappedAddress, 0x1000, .halted, 0x1000) ∧
      ended (run1 (only (st z0 Flags.zero [0x31, 0x00, 0x78, 0x56]) [⟨0x1000, 4⟩])) =
        (.unmappedAddress, 0x1004, .halted, 0x1004) := by
  decide

/-- The state before 95_test_vectors X-7. -/
def loadFaults : State := only (st (rs 9 0x5000 0 0 0 0) Flags.zero [0xA0, 0x88]) [⟨0x1000, 0x1000⟩]

/-- The state before 95_test_vectors X-8. -/
def storeFaults : State := only (st (rs 9 0x1FFE 0 0 0 0) Flags.zero [0xA8, 0x88]) [⟨0x1000, 0x1000⟩]

/-- 95_test_vectors X-7 and X-8: no register and no byte written. -/
theorem test_access_faults :
    ended (run1 loadFaults) = (.unmappedAddress, 0x5000, .halted, 0x1002) ∧ (run1 loadFaults).regs.r1 = 9 ∧
      ended (run1 storeFaults) = (.unmappedAddress, 0x1FFE, .halted, 0x1002) ∧
      (run1 storeFaults).mem = storeFaults.mem := by
  decide

/-- The state before 95_test_vectors X-9. -/
def divideFaults : State := (st (rs 7 0 0 0 0 0) (fl 0 0 0 0 1) [0x17, 0x08]).presentIrq (some 5)

/-- 95_test_vectors X-9. -/
theorem test_divide_fault :
    ended (run1 divideFaults) = (.divideByZero, 0, .halted, 0x1002) ∧ (run1 divideFaults).hookCalls = [] ∧
      (run1 divideFaults).irq = some 5 := by
  decide

/-! ### Interrupts -/

/-- The hook calls and the request after one step. -/
def served (i : Nat) (irq : Byte) (bytes : List Byte) : List Byte × Option Byte :=
  let t := run1 ((st (rs 1 1 0 0 0 0x8000) (fl 0 0 0 0 i) bytes).presentIrq (some irq))
  (t.hookCalls, t.irq)

/-- 95_test_vectors I-1 to I-6 and I-9. -/
theorem test_interrupts :
    [served 1 7 [0x30, 0x08], served 0 7 [0x30, 0x08], served 0 7 [0x06, 0x04], served 1 7 [0x07, 0x04],
      served 1 7 [0x08, 0x00], served 1 7 [0x00]] =
    [([7], none), ([], some 7), ([7], none), ([], some 7), ([], some 7), ([], some 7)] := by
  decide

/-- 95_test_vectors I-7 and I-8. -/
theorem test_interrupt_of_halt :
    served 1 7 [0x01] = ([7], none) ∧
      (run1 ((st z0 (fl 0 0 0 0 1) [0x01]).presentIrq (some 7))).mode = .halted ∧
      step ((run1 (st z0 (fl 0 0 0 0 1) [0x01])).presentIrq (some 8)) =
        .next ((run1 (st z0 (fl 0 0 0 0 1) [0x01])).presentIrq (some 8)) :=
  ⟨by decide, by decide, rfl⟩

/-- 60_exceptions R300 through the port: of two writes to a mapped byte the later stands, an unmapped one is dropped. -/
theorem test_hook_writes :
    let ws : List (Word × Byte) := [(0x8FFF, 1), (0x9000, 2), (0x8FFF, 3)]
    let s := only (st z0 Flags.zero []) twoRanges
    (s.hookWrites s.mem ws).read 0x8FFF = 3 ∧ (s.hookWrites s.mem ws).read 0x9000 = 0 ∧
      lastWrite 0x8FFF ws = some 3 ∧ lastWrite 0x9000 ws = some 2 ∧ lastWrite 0x8FFE ws = none := by
  decide

/-! ### The host's interface -/

theorem test_reset_memory_wf : State.reset.mem.wf = true := by decide

/-- A table word is run by the very next step: `MOV.RI R1, 0x12345678` and `ADD R1, R2`. -/
theorem test_fetch_word :
    (run1 (State.reset.withFetchWord 48 0x123456780031)).regs.r1 = 0x12345678 ∧
      (run1 (State.reset.withFetchWord 16 0x0810)).pc = 0x1002 := by
  decide

/-! ### Witnesses: concrete states and operands that meet the hypotheses of each statement -/

/-- A state after which a step with these bytes has a next state: `step s = .next (run1 s)` holds of it by evaluation.
-/
def ready (bytes : List Byte) : State := st (rs 7 2 3 4 5 0x8000) (fl 0 1 0 0 1) bytes

/-- `ready` with only `0x1000` to `0x1FFF` and `0x8000` to `0x8FFF` mapped. -/
def readyIn (bytes : List Byte) : State := only (ready bytes) twoRanges

/-- Registers R1 and R2 as given. -/
def two (x y : Word) : State := st (rs x y 0 0 0 0x8000) Flags.zero []

theorem witness_EncodeOfDecodeKeepsTheUsedBits :
    (formOf 0x08#8).isSome = true ∧ decode [0x08, 0xFD, 0x77] = .ok (.push .sp, [0x77]) ∧
      (formOf 0xAE#8).isSome = true ∧ decode [0xAE, 0xFF, 1, 2, 3, 4] = .ok (.st32x4d .zero .zero .r4 0x04030201, []) := by
  decide

theorem witness_UnusedOperandBitsAreIgnored :
    (formOf 0x08#8).isSome = true ∧ (formOf 0x10#8).isSome = true ∧ (formOf 0x31#8).isSome = true := by decide

theorem witness_UnknownOpcodeByteFaults :
    (ready [0x83]).mode = .running ∧ (ready [0x83]).isMapped (ready [0x83]).pc = true ∧
      assignedOpcode ((ready [0x83]).byteAt (ready [0x83]).pc).toNat = false := by
  decide

/-- The opcode byte itself, and the last of five operand bytes. -/
theorem witness_UnmappedFetchFaultsAtTheByte :
    ((only (ready []) []).isMapped ((only (ready []) []).pc + BitVec.ofNat 32 0) = false) ∧
      (let s := only (ready [0x31, 0x00, 0x78, 0x56, 0x34, 0x12]) [⟨0x1000, 5⟩]
       (∀ j : Nat, j < 5 → s.isMapped (s.pc + BitVec.ofNat 32 j) = true) ∧
        s.isMapped (s.pc + BitVec.ofNat 32 5) = false ∧ (formOf (s.byteAt s.pc)).map Form.operandBytes = some 5) := by
  decide

theorem witness_StepRunsTheDecodedInstruction :
    let s := readyIn [0x31, 0x00, 0x78, 0x56, 0x34, 0x12]
    s.mode = .running ∧ s.portOk s.pc 6 = true ∧
      decode ((List.range 6).map fun k => s.byteAt (s.pc + BitVec.ofNat 32 k)) = .ok (.movRI .r1 0x12345678, []) := by
  decide

/-- The end of a step: running with a request, `HALT` with a request, a fault, `F.I` = 0, no request. -/
theorem witness_StepRunsTheDecodedInstruction_end :
    (let u := (ready []).presentIrq (some 0xFF); (u.mode = .running ∨ Instr.ret = .halt) ∧ u.flags.i = true ∧ u.irq = some 0xFF) ∧
    (let u := ((ready []).presentIrq (some 0)).withMode .halted
     (u.mode = .running ∨ Instr.halt = .halt) ∧ u.flags.i = true ∧ u.irq = some 0) ∧
    ¬(((ready []).raise .divideByZero 0).mode = .running ∨ Instr.ret = .halt) ∧
    ((ready []).withFlags Flags.zero).flags.i = false ∧ (ready []).irq = none := by
  decide

theorem witness_HaltedCoreStaysAsItIs : ((ready []).withMode .halted).mode = .halted := by decide

theorem witness_EveryStepKeepsTheInvariant :
    (readyIn [0x08, 0x00]).Inv ∧ step (readyIn [0x08, 0x00]) = .next (run1 (readyIn [0x08, 0x00])) ∧
      pushFaults.Inv ∧ step pushFaults = .next (run1 pushFaults) :=
  ⟨⟨by decide, fun _ => rfl, rfl⟩, rfl, ⟨by decide, fun _ => rfl, rfl⟩, rfl⟩

theorem witness_NoStepChangesAnUnmappedByte :
    step (readyIn [0x08, 0x00]) = .next (run1 (readyIn [0x08, 0x00])) ∧
      (readyIn [0x08, 0x00]).isMapped 0x9000 = false ∧ (readyIn [0x08, 0x00]).isMapped 0x7FFF = false :=
  ⟨rfl, by decide⟩

/-- A core halts by `HALT`, by a fault of an instruction and by a fault of the fetch; a halted core takes a step. -/
theorem witness_OnlyHaltAndFaultsHaltTheCore :
    (step (ready [0x01]) = .next (run1 (ready [0x01])) ∧ (run1 (ready [0x01])).mode = .halted) ∧
    (step pushFaults = .next (run1 pushFaults) ∧ (run1 pushFaults).mode = .halted) ∧
    (step (ready [0x00]) = .next (run1 (ready [0x00])) ∧ (run1 (ready [0x00])).mode = .halted) ∧
    step (run1 (ready [0x01])) = .next (run1 (ready [0x01])) :=
  ⟨⟨rfl, by decide⟩, ⟨rfl, by decide⟩, ⟨rfl, by decide⟩, rfl⟩

theorem witness_FaultingStepWritesOnlySpAndPc :
    pushFaults.fault = .none ∧ step pushFaults = .next (run1 pushFaults) ∧ (run1 pushFaults).fault ≠ .none :=
  ⟨rfl, rfl, by decide⟩

/-- A request with the number of an earlier call is withdrawn, and a halted core leaves the request. -/
theorem witness_RequestsAreConsumedByAHookCall :
    let s := ((ready [0x30, 0x08]).presentIrq (some 7)).withHookCalls [7]
    (step s = .next (run1 s) ∧ s.irq = some 7 ∧ (run1 s).irq = none ∧ (run1 s).hookCalls = [7, 7]) ∧
      step (s.withMode .halted) = .next (s.withMode .halted) :=
  ⟨⟨rfl, by decide⟩, rfl⟩

/-- `MUL` does not list C and O, `DIV` not C, `ADD` not I, `SETF 4` not Z, `CMP` not I. -/
theorem witness_FlagsNotListedKeepTheirValue :
    (flagsWritten (.mul .r1 .r2)).c = false ∧ (flagsWritten (.mul .r1 .r2)).o = false ∧
      (flagsWritten (.div .r1 .r2)).c = false ∧ (flagsWritten (.add .r1 .r2)).i = false ∧
      (flagsWritten (.setf 4)).z = false ∧ (flagsWritten (.clrf 4)).n = false ∧ (flagsWritten .ret).n = false ∧
      ∃ t, exec (.mul .r1 .r2) (ready []) = .next t :=
  ⟨rfl, rfl, rfl, rfl, rfl, rfl, rfl, _, rfl⟩

theorem witness_OnlyStoringInstructionsWriteMemory :
    mayStore (.add .r1 .r2) = false ∧ (∃ t, exec (.add .r1 .r2) (ready []) = .next t) ∧ mayStore .ret = false ∧
      ∃ t, exec .ret (ready []) = .next t :=
  ⟨rfl, ⟨_, rfl⟩, rfl, _, rfl⟩

/-- A stream over the top of the address space: its last byte at 0, and the addresses next to it. -/
theorem witness_LoadedStreamReadsBack :
    (ready []).mem.wf = true ∧ ([1, 2, 3] : List Byte).length ≤ 2 ^ 32 ∧
      (∀ k : Nat, k < 3 → (0xFFFFFFFD#32) ≠ 0xFFFFFFFE#32 + BitVec.ofNat 32 k) ∧
      ∀ k : Nat, k < 3 → (1#32) ≠ 0xFFFFFFFE#32 + BitVec.ofNat 32 k := by
  decide

theorem witness_MemoriesThatReadAlikeAreEqual :
    ∃ m m' : Memory, m.wf = true ∧ m'.wf = true ∧ m ≠ [] ∧ ∀ a : Nat, m.read a = m'.read a :=
  ⟨[(5, 1)], Memory.write [] 5 1, by decide, by decide, by decide, fun _ => rfl⟩

theorem witness_NarrowReadsSeeTheBytesOfAWideWrite :
    (ready []).mem.wf = true ∧ ((ready []).setMem32 0xFFFFFFFE 0x44332211).isSome = true := by decide

theorem witness_DivUdivAndRemResult :
    (two 0x80000000 0xFFFFFFFF).reg .r2 ≠ 0#32 ∧ (two 7 0).reg .r2 = 0#32 ∧ (two 7 5).reg .zero = 0#32 := by decide

theorem witness_QuotientAndRemainderFitTogether :
    Reg.r1 ≠ .zero ∧ (two 0xFFFFFFF9 2).reg .r2 ≠ 0#32 ∧
      (∃ t, exec (.div .r1 .r2) (two 0xFFFFFFF9 2) = .next t) ∧ ∃ u, exec (.rem .r1 .r2) (two 0xFFFFFFF9 2) = .next u :=
  ⟨by decide, by decide, ⟨_, rfl⟩, _, rfl⟩

theorem witness_ShiftResult : 0 = ((two 1 32).reg .r2).toNat % 32 ∧ 31 = ((two 1 31).reg .r2).toNat % 32 := by decide

theorem witness_RotateResult : 0 = ((two 1 64).reg .r2).toNat % 32 ∧ 1 = ((two 1 33).reg .r2).toNat % 32 := by decide

theorem witness_FloatInstructionsComplete :
    0x3F800000 = (two 0x3F800000 0x40000000).reg .r1 ∧ F32.fin false (2 ^ 149) = f32 0x3F800000 := by decide

theorem witness_FloatPatternsRoundTrip :
    ([0, 0x80000000, 1, 0x007FFFFF, 0x00800000, 0x7F7FFFFF, 0x7F800000, 0xFF800000] : List Word).map isNanPattern =
      List.replicate 8 false := by
  decide

/-- A value at the overflow bound, one just below it, and a tie with a neighbour that is as near. -/
theorem witness_RoundingIsToNearestEven :
    (0 < 1 ∧ (2 ^ 25 - 1) * 2 ^ 252 * 1 ≤ (2 ^ 25 - 1) * 2 ^ 252) ∧
      (∃ m, roundBinary32 false ((2 ^ 25 - 1) * 2 ^ 252 - 1) 1 = .fin false m) ∧
      roundBinary32 true 3 2 = .fin true 2 ∧ f32 1 = .fin false 1 ∧ 1 ≠ 2 :=
  ⟨by decide, ⟨_, rfl⟩, by decide, by decide, by decide⟩

/-- The largest finite value and the smallest subnormal. -/
theorem witness_FloatResultsAreRounded :
    Reg.r1 ≠ .zero ∧ (0x7F7FFFFF#32).extractLsb' 23 8 ≠ 255#8 ∧ (0x80000001#32).extractLsb' 23 8 ≠ 255#8 ∧
      (two 0x7F7FFFFF 0x80000001).reg .r2 = 0x80000001 ∧ unitsOf 0x80000001 ≠ 0 := by
  decide

theorem witness_InvalidFloatOperationsGiveNan :
    (0x7F800001 = (two 0x7F800001 0).reg .r1 ∧ isNanPattern 0x7F800001 = true) ∧
    (0xFFFFFFFF = (two 0 0xFFFFFFFF).reg .r2 ∧ isNanPattern 0xFFFFFFFF = true) ∧
    (0x7F800000 = (two 0x7F800000 0xFF800000).reg .r1 ∧ 0xFF800000 = (two 0x7F800000 0xFF800000).reg .r2 ∧
      isInfPattern 0x7F800000 ∧ isInfPattern 0xFF800000 ∧ (0x7F800000#32).msb ≠ (0xFF800000#32).msb) ∧
    (0xFF800000 = (two 0xFF800000 0xFF800000).reg .r1 ∧ 0xFF800000 = (two 0xFF800000 0xFF800000).reg .r2) ∧
    (0x80000000 = (two 0x80000000 0x7F800000).reg .r1 ∧ isZeroPattern 0x80000000 ∧
      0x7F800000 = (two 0x80000000 0x7F800000).reg .r2) ∧
    (0 = (two 0 0x80000000).reg .r1 ∧ isZeroPattern 0 ∧ 0x80000000 = (two 0 0x80000000).reg .r2) ∧
    (1 = (two 1 0x80000000).reg .r1 ∧ isNanPattern 1 = false ∧ ¬isInfPattern 1 ∧ ¬isZeroPattern 1) := by
  unfold isInfPattern isZeroPattern
  decide

/-- One state for each clause: an infinity with the largest finite value, that value with an infinity, two infinities of
one sign and of both, an infinity with the smallest subnormal, 1.0 and -1.0, two zeros, the smallest subnormal times -0.5
and over 2.0 (both ties). -/
theorem witness_InfinitiesAndZeroSigns :
    (0xFF800000 = (two 0xFF800000 0x7F7FFFFF).reg .r1 ∧ 0x7F7FFFFF = (two 0xFF800000 0x7F7FFFFF).reg .r2 ∧
      isInfPattern 0xFF800000 ∧ isFinitePattern 0x7F7FFFFF) ∧
    (0x7F7FFFFF = (two 0x7F7FFFFF 0xFF800000).reg .r1 ∧ 0xFF800000 = (two 0x7F7FFFFF 0xFF800000).reg .r2) ∧
    (0xFF800000 = (two 0xFF800000 0xFF800000).reg .r1 ∧ 0xFF800000 = (two 0xFF800000 0xFF800000).reg .r2) ∧
    (0xFF800000 = (two 0xFF800000 0x7F800000).reg .r1 ∧ 0x7F800000 = (two 0xFF800000 0x7F800000).reg .r2 ∧
      isInfPattern 0x7F800000 ∧ (0xFF800000#32).msb ≠ (0x7F800000#32).msb) ∧
    (0x7F800000 = (two 0x7F800000 1).reg .r1 ∧ 1 = (two 0x7F800000 1).reg .r2 ∧ isFinitePattern 1 ∧ ¬isZeroPattern 1) ∧
    (1 = (two 1 0x7F800000).reg .r1 ∧ 0x7F800000 = (two 1 0x7F800000).reg .r2) ∧
    (0x3F800000 = (two 0x3F800000 0xBF800000).reg .r1 ∧ 0xBF800000 = (two 0x3F800000 0xBF800000).reg .r2 ∧
      isFinitePattern 0x3F800000 ∧ isFinitePattern 0xBF800000 ∧ unitsOf 0x3F800000 + unitsOf 0xBF800000 = 0) ∧
    (0x80000000 = (two 0x80000000 0).reg .r1 ∧ 0 = (two 0x80000000 0).reg .r2 ∧ isFinitePattern 0x80000000 ∧
      isFinitePattern 0 ∧ unitsOf 0x80000000 - unitsOf 0 = 0) ∧
    (1 = (two 1 0xBF000000).reg .r1 ∧ 0xBF000000 = (two 1 0xBF000000).reg .r2 ∧ isFinitePattern 0xBF000000 ∧
      2 * (unitsOf 1 * unitsOf 0xBF000000).natAbs ≤ 2 ^ 149) ∧
    (1 = (two 1 0x40000000).reg .r1 ∧ 0x40000000 = (two 1 0x40000000).reg .r2 ∧ isFinitePattern 0x40000000 ∧
      unitsOf 0x40000000 ≠ 0 ∧ 2 * (unitsOf 1).natAbs * 2 ^ 149 ≤ (unitsOf 0x40000000).natAbs) := by
  unfold isInfPattern isZeroPattern isFinitePattern
  decide

theorem witness_FcmpOrdersTheValues :
    isNanPattern ((two 0x7FC00000 0).reg .r1) = true ∧ isNanPattern ((two 0xFF800000 0x00000001).reg .r1) = false ∧
      isNanPattern ((two 0xFF800000 0x00000001).reg .r2) = false ∧ orderKey 0xFF800000 < orderKey 1 := by
  decide

/-- An access that ends with the last mapped byte, and one that goes one byte beyond it. -/
theorem witness_LoadResult :
    (0x8FFC#32) = (readyIn []).reg .sp + (readyIn []).reg IdxReg.r3.toReg * BitVec.ofNat 32 Scale.x4.factor + (some 0xFF0#32).getD 0#32 ∧
      (readyIn []).portOk 0x8FFC 4 = true ∧
      (0x8FFD#32) = (readyIn []).reg .sp + (readyIn []).reg IdxReg.r3.toReg * BitVec.ofNat 32 Scale.x4.factor + (some 0xFF1#32).getD 0#32 ∧
      (readyIn []).portOk 0x8FFD 4 = false ∧ (readyIn []).portOk 0x8FFF 1 = true ∧ (readyIn []).portOk 0x9000 1 = false := by
  decide

theorem witness_StoreResult :
    (readyIn []).mem.wf = true ∧ (0x8006#32) = (readyIn []).reg .sp + (readyIn []).reg IdxReg.r3.toReg * BitVec.ofNat 32 Scale.x2.factor + (none : Option Word).getD 0#32 ∧
      (readyIn []).portOk 0x8006 2 = true ∧
      (0x9000#32) = (readyIn []).reg .sp + (readyIn []).reg IdxReg.r2.toReg * BitVec.ofNat 32 Scale.x1.factor + (some 0xFFE#32).getD 0#32 ∧
      (readyIn []).portOk 0x9000 1 = false := by
  decide

/-- Each condition taken on some flags and not taken on others. -/
theorem witness_ConditionalJumpResult (c : Cond) : (∃ f : Flags, c.taken f) ∧ ∃ f : Flags, ¬c.taken f := by
  cases c
  case z | le | be | l | b | o => exact ⟨⟨fl 1 1 1 1 1, by simp [Cond.taken, fl]⟩, fl 0 0 0 0 0, by simp [Cond.taken, fl]⟩
  case nz | g | ge | a | ae | no => exact ⟨⟨fl 0 0 0 0 0, by simp [Cond.taken, fl]⟩, fl 1 1 1 1 1, by simp [Cond.taken, fl]⟩

theorem witness_CallResult :
    (readyIn []).mem.wf = true ∧ (readyIn []).portOk ((readyIn []).reg .sp + 4#32) 4 = true ∧
      callFaults.portOk (callFaults.reg .sp + 4#32) 4 = false := by
  decide

theorem witness_RetResult :
    (readyIn []).portOk ((readyIn []).reg .sp) 4 = true ∧ popFaults.portOk (popFaults.reg .sp) 4 = false := by decide

theorem witness_CallThenRetComesBack :
    (Instr.call16 0x8000#16 = .call16 0x8000#16 ∨ Instr.call16 0x8000#16 = .call32 0) ∧ (readyIn []).mem.wf = true ∧
      (readyIn []).portOk ((readyIn []).reg .sp + 4#32) 4 = true := by
  decide

theorem witness_PushResult :
    (readyIn []).mem.wf = true ∧ (readyIn []).portOk ((readyIn []).reg .sp + 4#32) 4 = true ∧
      pushFaults.mem.wf = true ∧ pushFaults.portOk (pushFaults.reg .sp + 4#32) 4 = false := by
  decide

theorem witness_PopResult :
    (readyIn []).portOk ((readyIn []).reg .sp) 4 = true ∧ popFaults.portOk (popFaults.reg .sp) 4 = false := by decide

/-- SP at the last mapped byte: `PUSHF` faults and `POPF` completes; one byte further `POPF` faults. -/
theorem witness_PushfAndPopfResult :
    (readyIn []).mem.wf = true ∧ (readyIn []).isMapped ((readyIn []).reg .sp + 1#32) = true ∧
      (let s := only (st (rs 0 0 0 0 0 0x8FFF) Flags.zero []) twoRanges
       s.isMapped (s.reg .sp + 1#32) = false ∧ s.isMapped (s.reg .sp) = true) ∧ popFaults.isMapped (popFaults.reg .sp) = false := by
  decide

theorem witness_PushThenPopMovesTheWord :
    (readyIn []).mem.wf = true ∧ (readyIn []).portOk ((readyIn []).reg .sp + 4#32) 4 = true ∧ Reg.r1 ≠ .sp ∧ Reg.r1 ≠ .pc ∧
      Reg.r1 ≠ .zero ∧ (readyIn []).isMapped ((readyIn []).reg .sp + 1#32) = true := by
  decide

theorem witness_HaltResult :
    (ready [0x01]).mode = .running ∧ (ready [0x01]).isMapped (ready [0x01]).pc = true ∧
      (ready [0x01]).byteAt (ready [0x01]).pc = 0x01#8 ∧ (ready [0x01]).irq = none ∧ (ready [0x01]).flags.i = true ∧
      ((ready [0x01]).presentIrq (some 7)).irq = some 7 := by
  decide

/-- The hook itself is open; a mapped and an unmapped address. -/
theorem witness_IntCallsTheHookOnce :
    ∃ (s : State) (n : Byte) (out : HookResult), s.mem.wf = true ∧ out = Config.intHook s.hookCalls n s.hookView ∧
      s.isMapped 0x8FFF = true ∧ s.isMapped 0x9000 = false :=
  ⟨readyIn [], 0xFF, _, by decide, rfl, by decide, by decide⟩

theorem witness_SetfAndClrfResult : (4#8).toNat ≤ 4 ∧ 4 < (5#8).toNat ∧ 4 < (0x0C#8).toNat := by decide


end Sys2Proof.Tests
end

/-! The registers' and memory's side of the state (10_state): the canonical form of memory, which steps halt the core,
and which flags an instruction keeps. -/

namespace Sys2Proof.Machine

/-! ### The canonical form of memory -/

/-- The lowest listed address of a memory is listed in every memory that reads alike, so none of them starts above
it. -/
theorem Memory.le_head_of_read_eq {lo lo' : Nat} {c : Host.Cell} {m m' : Memory}
    (h : Memory.wfFrom lo (c :: m) = true) (h' : Memory.wfFrom lo' m' = true)
    (hread : ∀ a : Nat, Memory.read (c :: m) a = m'.read a) : lo' ≤ c.1 := by
  obtain ⟨-, -, hlisted, -⟩ := (Memory.wfFrom_cons ..).mp h
  by_contra hlt
  have hhead : c.2 = m'.read c.1 := by simpa [Memory.read_cons] using hread c.1
  exact hlisted (hhead.trans (Memory.read_below h' (by omega)))

/-- A memory in canonical form starts at its first listed address. -/
theorem Memory.wfFrom_head {lo : Nat} {c : Host.Cell} {m : Memory} (h : Memory.wfFrom lo (c :: m) = true) :
    Memory.wfFrom c.1 (c :: m) = true := by
  obtain ⟨-, hrest⟩ := (Memory.wfFrom_cons ..).mp h
  exact (Memory.wfFrom_cons ..).mpr ⟨le_rfl, hrest⟩

/-- Memories that agree on the first entry and read alike have tails that read alike. -/
theorem Memory.read_tail_eq {c : Host.Cell} {m m' : Memory} (h : Memory.wfFrom (c.1 + 1) m = true)
    (h' : Memory.wfFrom (c.1 + 1) m' = true) (hread : ∀ a : Nat, Memory.read (c :: m) a = Memory.read (c :: m') a)
    (a : Nat) : m.read a = m'.read a := by
  by_cases ha : c.1 = a
  · rw [Memory.read_below h (by omega), Memory.read_below h' (by omega)]
  · simpa [Memory.read_cons, ha] using hread a

theorem Memory.eq_of_read_eq {lo lo' : Nat} {m m' : Memory} (h : Memory.wfFrom lo m = true)
    (h' : Memory.wfFrom lo' m' = true) (hread : ∀ a : Nat, m.read a = m'.read a) : m = m' := by
  induction m generalizing lo lo' m' with
  | nil =>
    cases m' with
    | nil => rfl
    | cons c' m' => exact absurd (Memory.le_head_of_read_eq (lo' := c'.1 + 1) h' rfl fun a => (hread a).symm) (by omega)
  | cons c m ih =>
    cases m' with
    | nil => exact absurd (Memory.le_head_of_read_eq (lo' := c.1 + 1) h rfl hread) (by omega)
    | cons c' m' =>
      have haddr : c.1 = c'.1 := le_antisymm
        (Memory.le_head_of_read_eq h' (Memory.wfFrom_head h) fun a => (hread a).symm)
        (Memory.le_head_of_read_eq h (Memory.wfFrom_head h') hread)
      have hbyte : c.2 = c'.2 := by simpa [Memory.read_cons, haddr] using hread c.1
      obtain rfl : c = c' := Prod.ext haddr hbyte
      obtain ⟨-, -, -, hm⟩ := (Memory.wfFrom_cons ..).mp h
      obtain ⟨-, -, -, hm'⟩ := (Memory.wfFrom_cons ..).mp h'
      rw [ih hm hm' (Memory.read_tail_eq hm hm' hread)]

/-- Settles O20, by induction on the listed bytes. -/
theorem memoriesThatReadAlikeAreEqual : Obligations.MemoriesThatReadAlikeAreEqual :=
  fun _ _ h h' hread => Memory.eq_of_read_eq h h' hread

/-! ### The invariant at reset -/

/-- Settles O11: no byte is listed, no fault is latched and `FAULT_INFO` is 0. -/
theorem theInvariantHoldsAtReset : Obligations.TheInvariantHoldsAtReset where
  memWf := rfl
  runningNoFault _ := rfl
  faultRecord := rfl

/-! ### What halts the core -/

@[simp] theorem State.serviceIrq_mode (s : State) : s.serviceIrq.mode = s.mode := by
  rcases s.serviceIrq_cases with h | ⟨n, -, -, h⟩ <;> rw [h]
  rfl

theorem FaultFits.cause_ne_none {s : State} {cause : Cause} {info : Word} (h : FaultFits s cause info) :
    cause ≠ .none := by
  rintro rfl
  exact h

/-- An instruction that raises leaves a fault latched. -/
theorem Shape.fault_ne_none {i : Instr} {s t : State} (h : Shape i s (.error t)) : t.fault ≠ .none := by
  obtain ⟨cause, info, u, rfl, -, hfits⟩ := h
  exact hfits.cause_ne_none

/-- A step of a running core leaves a fault latched, runs `HALT`, or leaves the core running. -/
theorem step_running_cases {s t : State} (hrun : s.mode = .running) (hstep : step s = .next t) :
    t.fault ≠ .none ∨ (∃ u, s.fetchInstr = .ok (.halt, u)) ∨ t.mode = .running := by
  rcases step_of_running hrun with ⟨v, cause, info, hs, hfits, -⟩ | ⟨i, v, r, hfetch, hshape, hr⟩
  · obtain rfl : (s.withPc v).raise cause info = t := by simpa [hs] using hstep
    exact .inl hfits.cause_ne_none
  · cases r with
    | error u =>
      obtain rfl : u = t := by simpa [hr.2] using hstep
      exact .inl hshape.fault_ne_none
    | ok u =>
      obtain rfl : u.serviceIrq = t := by simpa [hr.2] using hstep
      obtain ⟨-, hmode, -⟩ := hshape
      rcases hmode with rfl | hmode
      · exact .inr (.inl ⟨_, hfetch⟩)
      · exact .inr (.inr (by simpa [hrun] using hmode))

/-- Settles O13, from what a step of a halted and of a running core can do. -/
theorem onlyHaltAndFaultsHaltTheCore : Obligations.OnlyHaltAndFaultsHaltTheCore := by
  refine ⟨fun s t hstep hhalted => ?_, fun s t hstep hrun hhalted => ?_⟩
  · obtain rfl : s = t := by simpa [step_of_halted hhalted] using hstep
    exact hhalted
  · rcases step_running_cases hrun hstep with hfault | hhalt | hmode
    · exact .inl hfault
    · exact .inr hhalt
    · simp [hmode] at hhalted

/-! ### The state an instruction ends in -/

/-- The state a result stands for, raised or not. -/
def finalState : Except State State → State
  | .ok t => t
  | .error t => t

@[simp] theorem finalState_ok (t : State) : finalState (.ok t) = t := rfl
@[simp] theorem finalState_error (t : State) : finalState (.error t) = t := rfl

theorem settle_eq (r : Except State State) : settle r = .next (finalState r) := by cases r <;> rfl

/-! ### Flags that the shared operations keep -/

@[simp] theorem State.advanceSp_flags (s : State) (w : Word) : (s.advanceSp w).flags = s.flags := rfl
@[simp] theorem State.retreatSp_flags (s : State) (w : Word) : (s.retreatSp w).flags = s.flags := rfl

@[simp] theorem State.jumpIf_flags (s : State) (b : Bool) (disp : Word) : (s.jumpIf b disp).flags = s.flags := by
  cases b <;> rfl

theorem State.load8_flags (s : State) (d : Reg) (a : Word) : (finalState (s.load8 d a)).flags = s.flags := by
  rw [State.load8_eq]
  split <;> simp

theorem State.load16_flags (s : State) (d : Reg) (a : Word) : (finalState (s.load16 d a)).flags = s.flags := by
  rw [State.load16_eq]
  split <;> simp

theorem State.load32_flags (s : State) (d : Reg) (a : Word) : (finalState (s.load32 d a)).flags = s.flags := by
  rw [State.load32_eq]
  split <;> simp

theorem State.store8_flags (s : State) (d : Reg) (a : Word) : (finalState (s.store8 d a)).flags = s.flags := by
  rw [State.store8_eq]
  split <;> simp

theorem State.store16_flags (s : State) (d : Reg) (a : Word) : (finalState (s.store16 d a)).flags = s.flags := by
  rw [State.store16_eq]
  split <;> simp

theorem State.store32_flags (s : State) (d : Reg) (a : Word) : (finalState (s.store32 d a)).flags = s.flags := by
  rw [State.store32_eq]
  split <;> simp

theorem State.push8_flags (s : State) (b : Byte) : (finalState (s.push8 b)).flags = s.flags := by
  rw [State.push8_eq]
  split <;> simp

theorem State.call_flags (s : State) (disp : Word) : (finalState (s.call disp)).flags = s.flags := by
  rw [State.call_eq]
  split <;> simp

/-- `RET`: the popped word becomes `pc`, and no flag is written. -/
theorem State.popPc_flags (s : State) : (finalState (s.pop32.map fun p => p.2.withPc p.1)).flags = s.flags := by
  rw [State.pop32_eq]
  split <;> simp

/-! ### Flags against a list of written flags (10_state R31) -/

/-- Every flag that `written` does not list is the same in `f` and `g`. -/
def KeepsUnlisted (written f g : Flags) : Prop :=
  (written.z = false → g.z = f.z) ∧ (written.c = false → g.c = f.c) ∧ (written.o = false → g.o = f.o) ∧
    (written.n = false → g.n = f.n) ∧ (written.i = false → g.i = f.i)

theorem keepsUnlisted_of_eq (written : Flags) {f g : Flags} (h : g = f) : KeepsUnlisted written f g := by
  subst h
  exact ⟨fun _ => rfl, fun _ => rfl, fun _ => rfl, fun _ => rfl, fun _ => rfl⟩

theorem keepsUnlisted_all (f g : Flags) : KeepsUnlisted ⟨true, true, true, true, true⟩ f g := by simp [KeepsUnlisted]

/-- Where Z, C, O and N are listed, only I has to be kept. -/
theorem keepsUnlisted_zcon {f g : Flags} (h : g.i = f.i) : KeepsUnlisted ⟨true, true, true, true, false⟩ f g := by
  simp [KeepsUnlisted, h]

theorem arithOut_keeps (x y : Word) (f : Flags) (t : Int) (carry : Bool) :
    KeepsUnlisted ⟨true, true, true, true, false⟩ f (arithOut x y f t carry).flags :=
  keepsUnlisted_zcon rfl

theorem logicOut_keeps (f : Flags) (r : Word) (carry : Bool) :
    KeepsUnlisted ⟨true, true, true, true, false⟩ f (logicOut f r carry).flags :=
  keepsUnlisted_zcon rfl

theorem mulOut_keeps (f : Flags) (r : Word) : KeepsUnlisted ⟨true, false, false, true, false⟩ f (mulOut f r).flags := by
  simp [KeepsUnlisted, mulOut_eq]

theorem divOut_keeps (f : Flags) (r : Word) : KeepsUnlisted ⟨true, false, true, true, false⟩ f (divOut f r).flags := by
  simp [KeepsUnlisted, divOut_eq]

section
variable {written : Flags} {op : Word → Word → Flags → AluOut}

/-- A two-register instruction keeps the flags its operation keeps. -/
theorem State.aluWrite_keeps (hop : ∀ x y f, KeepsUnlisted written f (op x y f).flags) (s : State) (d r : Reg) :
    KeepsUnlisted written s.flags (s.aluWrite op d r).flags := by
  simpa [State.aluWrite_eq] using hop (s.reg d) (s.reg r) s.flags

/-- A division keeps the flags its operation keeps, and all of them where it raises. -/
theorem State.aluDivide_keeps (hop : ∀ x y f, KeepsUnlisted written f (op x y f).flags) (s : State) (d r : Reg) :
    KeepsUnlisted written s.flags (finalState (s.aluDivide op d r)).flags := by
  by_cases h : s.reg r = 0#32
  · rw [State.aluDivide_of_zero op d h]
    exact keepsUnlisted_of_eq written rfl
  · rw [State.aluDivide_of_ne op d h]
    exact State.aluWrite_keeps hop s d r

end

theorem State.floatFlags_keeps (s : State) (f : F32 → F32 → F32) (d r : Reg) :
    KeepsUnlisted ⟨true, true, true, true, false⟩ s.flags (s.floatFlags f d r).flags :=
  keepsUnlisted_zcon rfl

theorem State.floatWrite_keeps (s : State) (op : FloatOp) (f : F32 → F32 → F32) (d r : Reg) :
    KeepsUnlisted ⟨true, true, true, true, false⟩ s.flags (s.floatWrite op f d r).flags := by
  obtain ⟨-, hflags, -, -⟩ := s.floatWrite_effect op f d r
  exact keepsUnlisted_zcon (by rw [hflags])

/-! ### `SETF` and `CLRF` -/

/-- The index of a flag (30_encoding R85). -/
def FlagName.index : FlagName → Byte
  | .z => 0#8
  | .c => 1#8
  | .o => 2#8
  | .n => 3#8
  | .i => 4#8

/-- Only a flag's own index names it. -/
theorem FlagName.eq_index_of_ofIndex {k : Byte} {name : FlagName} (h : FlagName.ofIndex k = some name) :
    k = name.index := by
  unfold FlagName.ofIndex at h
  split at h <;> cases h <;> exact BitVec.eq_of_toNat_eq (by assumption)

theorem Flags.put_keeps (f : Flags) (name : FlagName) (b : Bool) :
    KeepsUnlisted (flagsWritten (.setf name.index)) f (f.put name b) := by
  cases name <;> simp [KeepsUnlisted, flagsWritten, FlagName.index, Flags.put]

/-- The flag named is the one listed; an index that names none raises and writes no flag. -/
theorem State.putFlag_keeps (s : State) (op k : Byte) (b : Bool) :
    KeepsUnlisted (flagsWritten (.setf k)) s.flags (finalState (s.putFlag op k b)).flags := by
  unfold State.putFlag
  split
  · rename_i name hname
    obtain rfl := FlagName.eq_index_of_ofIndex hname
    exact s.flags.put_keeps name b
  · exact keepsUnlisted_of_eq _ rfl

/-! ### Every instruction -/

/-- An instruction has a next state, in which every flag its rule does not list is as before. -/
theorem exec_keepsUnlisted (i : Instr) (s : State) :
    ∃ t, exec i s = .next t ∧ KeepsUnlisted (flagsWritten i) s.flags t.flags := by
  cases i
  case add d r | adc d r | sub d r | sbb d r =>
    exact ⟨_, rfl, State.aluWrite_keeps (fun x y f => arithOut_keeps x y f _ _) s d r⟩
  case cmp d r => exact ⟨_, rfl, arithOut_keeps ..⟩
  case mul d r | umul d r => exact ⟨_, rfl, State.aluWrite_keeps (fun _ _ f => mulOut_keeps f _) s d r⟩
  case div d r | udiv d r | rem d r =>
    exact ⟨_, settle_eq _, State.aluDivide_keeps (fun _ _ f => divOut_keeps f _) s d r⟩
  case and d r | or d r | xor d r | shr d r | sar d r | shl d r | rol d r | ror d r =>
    exact ⟨_, rfl, State.aluWrite_keeps (fun _ _ f => logicOut_keeps f _ _) s d r⟩
  case fadd d r | fsub d r | fmul d r | fdiv d r => exact ⟨_, rfl, s.floatWrite_keeps ..⟩
  case fcmp d r => exact ⟨_, rfl, s.floatFlags_keeps ..⟩
  case setf k | clrf k => exact ⟨_, settle_eq _, s.putFlag_keeps ..⟩
  case push q | pop q | popf => exact ⟨_, settle_eq _, keepsUnlisted_all ..⟩
  case int n => exact ⟨_, rfl, keepsUnlisted_all ..⟩
  case halt => exact ⟨_, rfl, keepsUnlisted_of_eq _ rfl⟩
  case pushf => exact ⟨_, settle_eq _, keepsUnlisted_of_eq _ (s.push8_flags _)⟩
  case call16 disp | call32 disp => exact ⟨_, settle_eq _, keepsUnlisted_of_eq _ (s.call_flags _)⟩
  case ret => exact ⟨_, settle_eq _, keepsUnlisted_of_eq _ s.popPc_flags⟩
  case movRR d r | movRI d v => exact ⟨_, rfl, keepsUnlisted_of_eq _ (s.writeReg_flags ..)⟩
  case jmpR x | jmp16 x | jmp32 x => exact ⟨_, rfl, keepsUnlisted_of_eq _ rfl⟩
  case jz16 x | jnz16 x | jg16 x | jge16 x | jl16 x | jle16 x | ja16 x | jae16 x | jb16 x | jbe16 x | jo16 x | jno16 x =>
    exact ⟨_, rfl, keepsUnlisted_of_eq _ (s.jumpIf_flags ..)⟩
  case jz32 x | jnz32 x | jg32 x | jge32 x | jl32 x | jle32 x | ja32 x | jae32 x | jb32 x | jbe32 x | jo32 x | jno32 x =>
    exact ⟨_, rfl, keepsUnlisted_of_eq _ (s.jumpIf_flags ..)⟩
  case ld8x1 | ld8x2 | ld8x4 | ld8x1d | ld8x2d | ld8x4d =>
    exact ⟨_, settle_eq _, keepsUnlisted_of_eq _ (s.load8_flags ..)⟩
  case ld16x1 | ld16x2 | ld16x4 | ld16x1d | ld16x2d | ld16x4d =>
    exact ⟨_, settle_eq _, keepsUnlisted_of_eq _ (s.load16_flags ..)⟩
  case ld32x1 | ld32x2 | ld32x4 | ld32x1d | ld32x2d | ld32x4d =>
    exact ⟨_, settle_eq _, keepsUnlisted_of_eq _ (s.load32_flags ..)⟩
  case st8x1 | st8x2 | st8x4 | st8x1d | st8x2d | st8x4d =>
    exact ⟨_, settle_eq _, keepsUnlisted_of_eq _ (s.store8_flags ..)⟩
  case st16x1 | st16x2 | st16x4 | st16x1d | st16x2d | st16x4d =>
    exact ⟨_, settle_eq _, keepsUnlisted_of_eq _ (s.store16_flags ..)⟩
  case st32x1 | st32x2 | st32x4 | st32x1d | st32x2d | st32x4d =>
    exact ⟨_, settle_eq _, keepsUnlisted_of_eq _ (s.store32_flags ..)⟩

/-- Settles O16, by the case split over the instructions in `exec_keepsUnlisted`. -/
theorem flagsNotListedKeepTheirValue : Obligations.FlagsNotListedKeepTheirValue := by
  intro i s t hexec
  obtain ⟨u, hu, hkeeps⟩ := exec_keepsUnlisted i s
  obtain rfl : u = t := by simpa [hu] using hexec
  exact hkeeps

end Sys2Proof.Machine

/-! Memory as the port shows it (20_memory): which instructions write it, what a wide write leaves for narrower reads,
what no step touches, and where a fetch stops at an unmapped byte. -/

namespace Sys2Proof.Machine

/-! ### Instructions that write no memory (20_memory R58) -/

@[simp] theorem State.retreatSp_mem (s : State) (w : Word) : (s.retreatSp w).mem = s.mem := by simp [State.retreatSp]

@[simp] theorem State.jumpIf_mem (s : State) (b : Bool) (disp : Word) : (s.jumpIf b disp).mem = s.mem := by
  cases b <;> rfl

@[simp] theorem State.aluWrite_mem (s : State) (op : Word → Word → Flags → AluOut) (d r : Reg) :
    (s.aluWrite op d r).mem = s.mem := by simp [State.aluWrite_eq]

theorem State.aluDivide_mem (s : State) (op : Word → Word → Flags → AluOut) (d r : Reg) :
    (finalState (s.aluDivide op d r)).mem = s.mem := by
  by_cases hzero : s.reg r = 0#32
  · simp [State.aluDivide_of_zero op d hzero]
  · simp [State.aluDivide_of_ne op d hzero]

theorem State.floatWrite_mem (s : State) (op : FloatOp) (f : F32 → F32 → F32) (d r : Reg) :
    (s.floatWrite op f d r).mem = s.mem := by simp [State.floatWrite, State.floatFlags]

theorem State.putFlag_mem (s : State) (op k : Byte) (b : Bool) :
    (finalState (s.putFlag op k b)).mem = s.mem := by
  unfold State.putFlag
  split <;> rfl

/-- A read through the port, faulting or not, writes no memory unless the use of its value does. -/
theorem State.orUnmapped_map_mem {α : Type} (s : State) (a : Word) (answer : Option α) {f : α → State}
    (hf : ∀ v, (f v).mem = s.mem) : (finalState ((s.orUnmapped a answer).map f)).mem = s.mem := by
  cases answer with
  | none => rfl
  | some v => exact hf v

theorem State.load8_mem (s : State) (d : Reg) (a : Word) : (finalState (s.load8 d a)).mem = s.mem :=
  s.orUnmapped_map_mem a _ fun _ => s.writeReg_mem ..

theorem State.load16_mem (s : State) (d : Reg) (a : Word) : (finalState (s.load16 d a)).mem = s.mem :=
  s.orUnmapped_map_mem a _ fun _ => s.writeReg_mem ..

theorem State.load32_mem (s : State) (d : Reg) (a : Word) : (finalState (s.load32 d a)).mem = s.mem :=
  s.orUnmapped_map_mem a _ fun _ => s.writeReg_mem ..

/-- A pop of a word, then a use of it that writes no memory. -/
theorem State.pop32_map_mem (s : State) {f : Word × State → State} (hf : ∀ p, (f p).mem = p.2.mem) :
    (finalState (s.pop32.map f)).mem = s.mem := by
  rw [State.pop32_eq]
  split
  · exact (hf _).trans (s.retreatSp_mem _)
  · rfl

/-- A pop of a byte, then a use of it that writes no memory. -/
theorem State.pop8_map_mem (s : State) {f : Byte × State → State} (hf : ∀ p, (f p).mem = p.2.mem) :
    (finalState (s.pop8.map f)).mem = s.mem := by
  rw [State.pop8_eq]
  split
  · exact (hf _).trans (s.retreatSp_mem _)
  · rfl

/-- An instruction outside the list of 20_memory R58 has a next state, with the very same memory. -/
theorem exec_mem_of_not_mayStore {i : Instr} (hi : mayStore i = false) (s : State) :
    ∃ t, exec i s = .next t ∧ t.mem = s.mem := by
  cases i
  case add | adc | sub | sbb | mul | umul | and | or | xor | shr | sar | shl | rol | ror =>
    exact ⟨_, rfl, s.aluWrite_mem ..⟩
  case div | udiv | rem => exact ⟨_, settle_eq _, s.aluDivide_mem ..⟩
  case fadd | fsub | fmul | fdiv => exact ⟨_, rfl, s.floatWrite_mem ..⟩
  case cmp | fcmp | halt | jmpR | jmp16 | jmp32 => exact ⟨_, rfl, rfl⟩
  case setf | clrf => exact ⟨_, settle_eq _, s.putFlag_mem ..⟩
  case movRR | movRI => exact ⟨_, rfl, s.writeReg_mem ..⟩
  case jz16 | jnz16 | jg16 | jge16 | jl16 | jle16 | ja16 | jae16 | jb16 | jbe16 | jo16 | jno16 =>
    exact ⟨_, rfl, s.jumpIf_mem ..⟩
  case jz32 | jnz32 | jg32 | jge32 | jl32 | jle32 | ja32 | jae32 | jb32 | jbe32 | jo32 | jno32 =>
    exact ⟨_, rfl, s.jumpIf_mem ..⟩
  case ret => exact ⟨_, settle_eq _, s.pop32_map_mem fun _ => rfl⟩
  case pop q => exact ⟨_, settle_eq _, s.pop32_map_mem fun p => p.2.writeReg_mem q p.1⟩
  case popf => exact ⟨_, settle_eq _, s.pop8_map_mem fun _ => rfl⟩
  case ld8x1 | ld8x2 | ld8x4 | ld8x1d | ld8x2d | ld8x4d => exact ⟨_, settle_eq _, s.load8_mem ..⟩
  case ld16x1 | ld16x2 | ld16x4 | ld16x1d | ld16x2d | ld16x4d => exact ⟨_, settle_eq _, s.load16_mem ..⟩
  case ld32x1 | ld32x2 | ld32x4 | ld32x1d | ld32x2d | ld32x4d => exact ⟨_, settle_eq _, s.load32_mem ..⟩
  -- What is left are the writers that R58 lists, which `hi` rules out.
  all_goals cases hi

/-- Settles O17, by the case split over the instructions in `exec_mem_of_not_mayStore`. -/
theorem onlyStoringInstructionsWriteMemory : Obligations.OnlyStoringInstructionsWriteMemory := by
  intro i s t hi hexec
  obtain ⟨u, hu, hmem⟩ := exec_mem_of_not_mayStore hi s
  obtain rfl : u = t := by simpa [hu] using hexec
  exact State.byteAt_congr hmem

/-! ### Narrower reads of a 32-bit write (20_memory R55) -/

/-- Two neighbouring bytes of a word are its 16 bits from the lower one on. -/
theorem le16_extract (v : Word) (i : Nat) :
    le16 (v.extractLsb' i 8) (v.extractLsb' (i + 8) 8) = v.extractLsb' i 16 :=
  BitVec.extractLsb'_append_extractLsb'_eq_extractLsb' rfl

/-- The port answers every access that lies within one it answers. -/
theorem State.portOk_within {s : State} {a : Word} {n : Nat} (h : s.portOk a n = true) {k m : Nat} (hkm : k + m ≤ n) :
    s.portOk (a + BitVec.ofNat 32 k) m = true := by
  rw [State.portOk_iff] at h ⊢
  intro j hj
  rw [BitVec.add_assoc, ← BitVec.ofNat_add]
  exact h (k + j) (by omega)

/-- What `setMem32` leaves: the port answers there as before, and byte `k` of the four is byte `k` of the value. -/
theorem State.setMem32_bytes {s t : State} {a v : Word} (hwf : s.mem.wf = true) (h : s.setMem32 a v = some t) :
    t.portOk a 4 = true ∧ ∀ k : Nat, k < 4 → t.byteAt (a + BitVec.ofNat 32 k) = v.extractLsb' (8 * k) 8 := by
  obtain ⟨hport, hwrite⟩ := Option.ite_none_right_eq_some.mp h
  obtain rfl := Option.some.inj hwrite
  refine ⟨hport, fun k hk => ?_⟩
  have hread := Memory.read_writeBytes_same a (bytes32 v) hwf (by simp) (k := k) hk
  refine hread.trans ?_
  match k, hk with
  | 0, _ | 1, _ | 2, _ | 3, _ => rfl

section

variable {t : State} {a v : Word} (hport : t.portOk a 4 = true)
  (hbytes : ∀ k : Nat, k < 4 → t.byteAt (a + BitVec.ofNat 32 k) = v.extractLsb' (8 * k) 8)

include hport hbytes

theorem State.getMem8_of_bytes {k : Nat} (hk : k < 4) :
    t.getMem8 (a + BitVec.ofNat 32 k) = some (v.extractLsb' (8 * k) 8) := by
  rw [State.getMem8, if_pos (State.portOk_within hport (by omega)), hbytes k hk]

theorem State.getMem16_of_bytes {k : Nat} (hk : k < 3) :
    t.getMem16 (a + BitVec.ofNat 32 k) = some (v.extractLsb' (8 * k) 16) := by
  have hnext : a + BitVec.ofNat 32 k + 1#32 = a + BitVec.ofNat 32 (k + 1) := by
    rw [BitVec.add_assoc, ← BitVec.ofNat_add]
  rw [State.getMem16, if_pos (State.portOk_within hport (by omega)), hnext, hbytes k (by omega),
    hbytes (k + 1) (by omega), Nat.mul_add, le16_extract]

theorem State.getMem32_of_bytes : t.getMem32 a = some v := by
  have hfirst : t.byteAt a = v.extractLsb' 0 8 := by simpa using hbytes 0 (by omega)
  rw [State.getMem32, if_pos hport, hfirst, hbytes 1 (by omega), hbytes 2 (by omega), hbytes 3 (by omega)]
  exact congrArg some (le32_bytes32 v)

end

/-- Settles O21: each read lies within the four bytes that `State.setMem32_bytes` tells. -/
theorem narrowReadsSeeTheBytesOfAWideWrite : Obligations.NarrowReadsSeeTheBytesOfAWideWrite := by
  intro s t a v hwf hset
  obtain ⟨hport, hbytes⟩ := State.setMem32_bytes hwf hset
  have h8 {k : Nat} (hk : k < 4) := State.getMem8_of_bytes hport hbytes hk
  have h16 {k : Nat} (hk : k < 3) := State.getMem16_of_bytes hport hbytes hk
  have h8first : t.getMem8 a = some (v.extractLsb' 0 8) := by simpa using h8 (k := 0) (by omega)
  have h16first : t.getMem16 a = some (v.extractLsb' 0 16) := by simpa using h16 (k := 0) (by omega)
  exact ⟨State.getMem32_of_bytes hport hbytes, h16first, h16 (k := 1) (by omega), h16 (k := 2) (by omega),
    h8first, h8 (k := 1) (by omega), h8 (k := 2) (by omega), h8 (k := 3) (by omega)⟩

/-! ### Unmapped bytes and the mapping (20_memory R53, R62, 60_exceptions R300) -/

/-- What every step leaves alone: the mapping, the count of resets, and the bytes no port access reaches. -/
structure KeepsUnmapped (s t : State) : Prop where
  mapped : t.mapped = s.mapped
  resets : t.resets = s.resets
  bytes : ∀ a : Word, s.isMapped a = false → t.byteAt a = s.byteAt a

theorem KeepsUnmapped.trans {s t u : State} (hst : KeepsUnmapped s t) (htu : KeepsUnmapped t u) :
    KeepsUnmapped s u where
  mapped := htu.mapped.trans hst.mapped
  resets := htu.resets.trans hst.resets
  bytes a ha := (htu.bytes a ((State.isMapped_congr hst.mapped a).trans ha)).trans (hst.bytes a ha)

/-- Registers, flags, mode, fault and request are none of what `KeepsUnmapped` speaks of. -/
theorem keepsUnmapped_of_eq {s t : State} (hmapped : t.mapped = s.mapped) (hresets : t.resets = s.resets)
    (hmem : t.mem = s.mem) : KeepsUnmapped s t :=
  ⟨hmapped, hresets, fun a _ => State.byteAt_congr hmem a⟩

theorem Kept.keepsUnmapped {s t : State} (h : Kept s t) : KeepsUnmapped s t := ⟨h.mapped, h.resets, h.unmapped⟩

/-- The hook's writes go through the port, so the interrupt check reaches no unmapped byte. -/
theorem State.serviceIrq_keepsUnmapped (s : State) : KeepsUnmapped s s.serviceIrq := by
  rcases s.serviceIrq_cases with hsame | ⟨n, -, -, hcall⟩
  · rw [hsame]
    exact keepsUnmapped_of_eq rfl rfl rfl
  · rw [hcall]
    have hwithdraw : KeepsUnmapped s (s.withIrq none) := keepsUnmapped_of_eq rfl rfl rfl
    exact hwithdraw.trans (kept_callHook (s.withIrq none) n).keepsUnmapped

/-- An instruction, completed or raised. -/
theorem Shape.keepsUnmapped {i : Instr} {s : State} {r : Except State State} (h : Shape i s r) :
    KeepsUnmapped s (finalState r) := by
  cases r with
  | ok t =>
    obtain ⟨hkept, -, -⟩ := h
    exact hkept.keepsUnmapped
  | error t =>
    obtain ⟨cause, info, u, rfl, rfl | ⟨w, rfl⟩, -⟩ := h <;> exact keepsUnmapped_of_eq rfl rfl rfl

theorem step_keepsUnmapped {s t : State} (hstep : step s = .next t) : KeepsUnmapped s t := by
  cases hmode : s.mode with
  | halted =>
    obtain rfl : s = t := by simpa [step_of_halted hmode] using hstep
    exact keepsUnmapped_of_eq rfl rfl rfl
  | running =>
    rcases step_of_running hmode with ⟨v, cause, info, hs, -, -⟩ | ⟨i, v, r, -, hshape, hr⟩
    · obtain rfl : (s.withPc v).raise cause info = t := by simpa [hs] using hstep
      exact keepsUnmapped_of_eq rfl rfl rfl
    · have hfetch : KeepsUnmapped s (s.withPc v) := keepsUnmapped_of_eq rfl rfl rfl
      have hinstr := hfetch.trans hshape.keepsUnmapped
      cases r with
      | ok u =>
        obtain rfl : u.serviceIrq = t := by simpa [hr.2] using hstep
        exact hinstr.trans u.serviceIrq_keepsUnmapped
      | error u =>
        obtain rfl : u = t := by simpa [hr.2] using hstep
        exact hinstr

/-- Settles O12, from `step_keepsUnmapped`. -/
theorem noStepChangesAnUnmappedByte : Obligations.NoStepChangesAnUnmappedByte := by
  intro s t hstep
  obtain ⟨hmapped, hresets, hbytes⟩ := step_keepsUnmapped hstep
  exact ⟨hmapped, hresets, hbytes⟩

/-! ### A fetch that meets an unmapped byte (20_memory R62, 60_exceptions R294) -/

theorem step_of_fetch_error {s t : State} (hrun : s.mode = .running) (hfetch : s.fetchInstr = .error t) :
    step s = .next t := by simp [step, hrun, hfetch]

theorem State.fetchInstr_of_opcode_unmapped {s : State} (h : s.isMapped s.pc = false) :
    s.fetchInstr = .error (s.raise .unmappedAddress s.pc) := by
  simp [State.fetchInstr, State.fetch8_of_unmapped h]

/-- The opcode byte and the `k` operand bytes after it are mapped, the next operand byte is not. -/
theorem State.fetchInstr_of_operand_unmapped {s : State} {form : Form} {k : Nat}
    (hop : s.isMapped s.pc = true) (hform : formOf (s.byteAt s.pc) = some form) (hk : k < form.operandBytes)
    (hmapped : s.portOk (s.pc + 1#32) k = true)
    (hunmapped : s.isMapped (s.pc + BitVec.ofNat 32 (k + 1)) = false) :
    s.fetchInstr = .error ((s.withPc (s.pc + BitVec.ofNat 32 (k + 1))).raise .unmappedAddress
      (s.pc + BitVec.ofNat 32 (k + 1))) := by
  rw [← addr_succ] at hunmapped ⊢
  have hbytes := (s.withPc (s.pc + 1#32)).fetchBytes_of_unmapped hk hmapped hunmapped
  simp only [State.withPc_pc, State.withPc_withPc] at hbytes
  simp only [State.fetchInstr, State.fetch8_of_mapped hop, hform, hbytes]

/-- Settles O6: position 0 is the opcode byte, position `k + 1` an operand byte. -/
theorem unmappedFetchFaultsAtTheByte : Obligations.UnmappedFetchFaultsAtTheByte := by
  intro s k hrun hmapped hunmapped hshape
  refine ⟨_, step_of_fetch_error hrun ?_, rfl⟩
  cases k with
  | zero =>
    simp only [BitVec.add_zero] at hunmapped ⊢
    exact State.fetchInstr_of_opcode_unmapped hunmapped
  | succ k =>
    obtain ⟨form, hform, hk⟩ := hshape.resolve_left k.succ_ne_zero
    have hop : s.isMapped s.pc = true := by simpa using hmapped 0 k.succ_pos
    have hoperands : s.portOk (s.pc + 1#32) k = true := by
      rw [State.portOk_iff]
      intro j hj
      rw [addr_succ]
      exact hmapped (j + 1) (by omega)
    exact State.fetchInstr_of_operand_unmapped hop hform hk hoperands hunmapped

end Sys2Proof.Machine

/-! The codec (30_encoding): each row of the opcode map against the encoder, the two laws of R92, the unused bits of
R96, what an unassigned opcode byte does, and what a step makes of bytes that decode. -/

namespace Sys2Proof

open Machine

/-! ### Looking an opcode byte up (30_encoding R93, R94) -/

theorem findForm_mem {op : Byte} {form : Form} {rows : List (Byte × Form)} (h : findForm op rows = some form) :
    (op, form) ∈ rows := by
  induction rows with
  | nil => simp [findForm] at h
  | cons row rows ih =>
    rw [findForm] at h
    split at h
    · rename_i hop
      obtain rfl : row.2 = form := by simpa using h
      exact hop ▸ List.mem_cons_self
    · exact List.mem_cons_of_mem _ (ih h)

theorem formOf_mem {op : Byte} {form : Form} (h : formOf op = some form) : (op, form) ∈ opmapRows := findForm_mem h

/-- The map lists opcode bytes in the ranges of R93 only. -/
theorem assignedOpcode_of_mem_opmapRows : ∀ row ∈ opmapRows, assignedOpcode row.1.toNat = true := by decide

theorem formOf_eq_none_of_unassigned {op : Byte} (h : assignedOpcode op.toNat = false) : formOf op = none := by
  cases hform : formOf op with
  | none => rfl
  | some form => simpa [h] using assignedOpcode_of_mem_opmapRows _ (formOf_mem hform)

/-! ### A row of the map and the encoder -/

/-- The encoder writes every instruction of the shape as the opcode byte `op` and the shape's layout (30_encoding R79
to R90). -/
def Form.EncodesWith (op : Byte) : Form → Prop
  | .none mk => encode mk = encNone op
  | .reg mk => ∀ q, encode (mk q) = encReg op q
  | .twoRegs mk => ∀ d r, encode (mk d r) = encTwoRegs op d r
  | .modRR mk => ∀ d b x, encode (mk d b x) = encModRR op d b x
  | .modRROff mk => ∀ d b x disp, encode (mk d b x disp) = encModRROff op d b x disp
  | .flag mk => ∀ k, encode (mk k) = encByte op k
  | .imm32ToReg mk => ∀ d v, encode (mk d v) = encImm32ToReg op d v
  | .jmpDest16 mk => ∀ disp, encode (mk disp) = encJmpDest16 op disp
  | .jmpDest32 mk => ∀ disp, encode (mk disp) = encJmpDest32 op disp
  | .intIndex mk => ∀ n, encode (mk n) = encByte op n

/-- The rows of the map one after another: encoder and map name the same opcode byte and the same shape. -/
theorem encodesWith_of_mem_opmapRows : ∀ row ∈ opmapRows, row.2.EncodesWith row.1 := by
  rw [← List.forall_iff_forall_mem]
  simp only [opmapRows, opmapSystem, opmapAlu, opmapFloatMove, opmapJump, opmapCall, opmapMove8, opmapMove16,
    opmapMove32, List.cons_append, List.nil_append, List.forall_cons, List.Forall.eq_1, and_true, Form.EncodesWith]
  and_intros <;> intros <;> rfl

theorem encodesWith_of_formOf {op : Byte} {form : Form} (h : formOf op = some form) : form.EncodesWith op :=
  encodesWith_of_mem_opmapRows _ (formOf_mem h)

/-! ### Operand bytes of a shape (30_encoding R75, R99) -/

theorem Form.operandBytes_le_of_build {form : Form} {bs : List Byte} {r : Instr × List Byte}
    (h : form.build bs = some r) : form.operandBytes ≤ bs.length := by
  unfold Form.build at h
  split at h <;> simp [Form.operandBytes] at h ⊢

/-- What a shape reads is its own number of bytes, and the rest is left over. -/
theorem Form.operands_of_build {form : Form} {bs rest : List Byte} {i : Instr} (h : form.build bs = some (i, rest)) :
    ∃ operands, bs = operands ++ rest ∧ operands.length = form.operandBytes ∧
      form.build operands = some (i, []) := by
  have hlen : (bs.take form.operandBytes).length = form.operandBytes :=
    List.length_take_of_le (Form.operandBytes_le_of_build h)
  obtain ⟨j, hj⟩ := form.build_of_length _ hlen
  have happend := form.build_append _ (bs.drop form.operandBytes) hj
  obtain ⟨rfl, rfl⟩ : i = j ∧ rest = bs.drop form.operandBytes := by
    simpa [List.take_append_drop, h] using happend
  exact ⟨_, (List.take_append_drop ..).symm, hlen, hj⟩

/-! ### The decoder after a known opcode byte -/

theorem decode_of_formOf {op : Byte} {form : Form} (h : formOf op = some form) {bs : List Byte}
    {r : Instr × List Byte} (hbuild : form.build bs = some r) : decode (op :: bs) = .ok r := by
  simp only [decode, h, hbuild]

theorem build_of_decode {op : Byte} {form : Form} (h : formOf op = some form) {bs : List Byte}
    {r : Instr × List Byte} (hdecode : decode (op :: bs) = .ok r) : form.build bs = some r := by
  cases hbuild : form.build bs with
  | none => simp [decode, h, hbuild] at hdecode
  | some r' => simpa [decode, h, hbuild] using hdecode

/-- After the same opcode byte, the decoder sees no more of the bytes than the shape does. -/
theorem decode_congr {op : Byte} {form : Form} (h : formOf op = some form) {bs bs' : List Byte}
    (hbuild : form.build bs = form.build bs') : decode (op :: bs) = decode (op :: bs') := by
  simp only [decode, h, hbuild]

theorem formOf_of_decode {op : Byte} {bs : List Byte} {r : Instr × List Byte} (hdecode : decode (op :: bs) = .ok r) :
    ∃ form, formOf op = some form := by
  cases h : formOf op with
  | none => simp [decode, h] at hdecode
  | some form => exact ⟨form, rfl⟩

/-! ### The first law of R92: each layout reads back -/

section
variable {op : Byte}

theorem decode_encNone {mk : Instr} (h : formOf op = some (.none mk)) (rest : List Byte) :
    decode (encNone op ++ rest) = .ok (mk, rest) :=
  decode_of_formOf h rfl

theorem decode_encReg {mk : Reg → Instr} (h : formOf op = some (.reg mk)) (q : Reg) (rest : List Byte) :
    decode (encReg op q ++ rest) = .ok (mk q, rest) :=
  decode_of_formOf h (by simp [Form.build])

theorem decode_encTwoRegs {mk : Reg → Reg → Instr} (h : formOf op = some (.twoRegs mk)) (d r : Reg)
    (rest : List Byte) : decode (encTwoRegs op d r ++ rest) = .ok (mk d r, rest) :=
  decode_of_formOf h (by simp [Form.build])

theorem decode_encModRR {mk : Reg → Reg → IdxReg → Instr} (h : formOf op = some (.modRR mk)) (d b : Reg)
    (x : IdxReg) (rest : List Byte) : decode (encModRR op d b x ++ rest) = .ok (mk d b x, rest) :=
  decode_of_formOf h (by simp [Form.build])

theorem decode_encModRROff {mk : Reg → Reg → IdxReg → Word → Instr} (h : formOf op = some (.modRROff mk))
    (d b : Reg) (x : IdxReg) (disp : Word) (rest : List Byte) :
    decode (encModRROff op d b x disp ++ rest) = .ok (mk d b x disp, rest) :=
  decode_of_formOf h (by simp [Form.build, bytes32])

theorem decode_encByte_flag {mk : Byte → Instr} (h : formOf op = some (.flag mk)) (k : Byte) (rest : List Byte) :
    decode (encByte op k ++ rest) = .ok (mk k, rest) :=
  decode_of_formOf h rfl

theorem decode_encByte_intIndex {mk : Byte → Instr} (h : formOf op = some (.intIndex mk)) (n : Byte)
    (rest : List Byte) : decode (encByte op n ++ rest) = .ok (mk n, rest) :=
  decode_of_formOf h rfl

theorem decode_encImm32ToReg {mk : Reg → Word → Instr} (h : formOf op = some (.imm32ToReg mk)) (d : Reg) (v : Word)
    (rest : List Byte) : decode (encImm32ToReg op d v ++ rest) = .ok (mk d v, rest) :=
  decode_of_formOf h (by simp [Form.build, bytes32])

theorem decode_encJmpDest16 {mk : BitVec 16 → Instr} (h : formOf op = some (.jmpDest16 mk)) (disp : BitVec 16)
    (rest : List Byte) : decode (encJmpDest16 op disp ++ rest) = .ok (mk disp, rest) :=
  decode_of_formOf h (by simp [Form.build, bytes16])

theorem decode_encJmpDest32 {mk : Word → Instr} (h : formOf op = some (.jmpDest32 mk)) (disp : Word)
    (rest : List Byte) : decode (encJmpDest32 op disp ++ rest) = .ok (mk disp, rest) :=
  decode_of_formOf h (by simp [Form.build, bytes32])

end

/-- Settles O1: the instructions by their shape, each with the law of the shape's layout. -/
theorem decodeOfEncodeIsTheInstruction : Obligations.DecodeOfEncodeIsTheInstruction := by
  intro i rest
  cases i
  case halt | ret | pushf | popf => exact decode_encNone rfl rest
  case int n => exact decode_encByte_intIndex rfl n rest
  case setf k | clrf k => exact decode_encByte_flag rfl k rest
  case push q | pop q | jmpR q => exact decode_encReg rfl q rest
  case add d r | adc d r | sub d r | sbb d r | cmp d r | mul d r | umul d r | div d r | udiv d r | rem d r =>
    exact decode_encTwoRegs rfl d r rest
  case and d r | or d r | xor d r | shr d r | sar d r | shl d r | rol d r | ror d r =>
    exact decode_encTwoRegs rfl d r rest
  case fadd d r | fsub d r | fmul d r | fdiv d r | fcmp d r | movRR d r => exact decode_encTwoRegs rfl d r rest
  case movRI d v => exact decode_encImm32ToReg rfl d v rest
  case jmp16 x | jz16 x | jnz16 x | jg16 x | jge16 x | jl16 x | jle16 x => exact decode_encJmpDest16 rfl x rest
  case ja16 x | jae16 x | jb16 x | jbe16 x | jo16 x | jno16 x | call16 x => exact decode_encJmpDest16 rfl x rest
  case jmp32 x | jz32 x | jnz32 x | jg32 x | jge32 x | jl32 x | jle32 x => exact decode_encJmpDest32 rfl x rest
  case ja32 x | jae32 x | jb32 x | jbe32 x | jo32 x | jno32 x | call32 x => exact decode_encJmpDest32 rfl x rest
  case ld8x1 d b x | ld8x2 d b x | ld8x4 d b x | st8x1 d b x | st8x2 d b x | st8x4 d b x =>
    exact decode_encModRR rfl d b x rest
  case ld16x1 d b x | ld16x2 d b x | ld16x4 d b x | st16x1 d b x | st16x2 d b x | st16x4 d b x =>
    exact decode_encModRR rfl d b x rest
  case ld32x1 d b x | ld32x2 d b x | ld32x4 d b x | st32x1 d b x | st32x2 d b x | st32x4 d b x =>
    exact decode_encModRR rfl d b x rest
  case ld8x1d d b x o | ld8x2d d b x o | ld8x4d d b x o | st8x1d d b x o | st8x2d d b x o | st8x4d d b x o =>
    exact decode_encModRROff rfl d b x o rest
  case ld16x1d d b x o | ld16x2d d b x o | ld16x4d d b x o | st16x1d d b x o | st16x2d d b x o | st16x4d d b x o =>
    exact decode_encModRROff rfl d b x o rest
  case ld32x1d d b x o | ld32x2d d b x o | ld32x4d d b x o | st32x1d d b x o | st32x2d d b x o | st32x4d d b x o =>
    exact decode_encModRROff rfl d b x o rest

/-! ### Unused operand bits (30_encoding R96) -/

theorem extract_clearUnused (b : Byte) : (b &&& 0x07#8).extractLsb' 0 3 = b.extractLsb' 0 3 := by
  revert b; decide

theorem unpackModRR_clearIndex (b : Byte) : unpackModRR (b &&& 0x3F#8) = { unpackModRR b with index := 0#2 } := by
  revert b; decide

theorem packModRR_extract (b : Byte) : packModRR ⟨b.extractLsb' 0 3, 0#3, 0#2⟩ = b &&& 0x07#8 := by
  revert b; decide

theorem packModRR_unpack_clearIndex (b : Byte) :
    packModRR { unpackModRR b with index := 0#2 } = b &&& 0x3F#8 := by
  revert b; decide

theorem keepUsedBits_of_all_used {form : Form} (h : usedBits form = 0xFF#8) (bs : List Byte) :
    keepUsedBits form bs = bs := by
  cases bs with
  | nil => rfl
  | cons b more =>
    have hall : b &&& 0xFF#8 = b := BitVec.and_allOnes
    rw [keepUsedBits, h, hall]

theorem Form.build_keepUsedBits (form : Form) (bs : List Byte) : form.build (keepUsedBits form bs) = form.build bs := by
  cases form
  case reg mk =>
    cases bs with
    | nil => rfl
    | cons b more => simp [keepUsedBits, usedBits, Form.build, extract_clearUnused]
  case imm32ToReg mk =>
    rcases bs with _ | ⟨b, _ | ⟨d0, _ | ⟨d1, _ | ⟨d2, _ | ⟨d3, more⟩⟩⟩⟩⟩ <;>
      simp [keepUsedBits, usedBits, Form.build, extract_clearUnused]
  case twoRegs mk =>
    cases bs with
    | nil => rfl
    | cons b more => simp [keepUsedBits, usedBits, Form.build, unpackModRR_clearIndex]
  all_goals rw [keepUsedBits_of_all_used rfl]

theorem unpackFlags_clearUnused (b : Byte) : Flags.unpack (b &&& 0x1F#8) = Flags.unpack b := by
  revert b; decide

/-- Settles O3: neither the shapes nor the flags register look at the bits cleared. -/
theorem unusedOperandBitsAreIgnored : Obligations.UnusedOperandBitsAreIgnored :=
  ⟨fun _ form bs h => decode_congr h (form.build_keepUsedBits bs), unpackFlags_clearUnused⟩

/-! ### The second law of R92 -/

@[simp] theorem bytes16_le16 (b0 b1 : Byte) : bytes16 (le16 b0 b1) = [b0, b1] := by
  obtain ⟨h0, h1⟩ := extract_le16 b0 b1
  rw [bytes16, h0, h1]

@[simp] theorem bytes32_le32 (b0 b1 b2 b3 : Byte) : bytes32 (le32 b0 b1 b2 b3) = [b0, b1, b2, b3] := by
  obtain ⟨h0, h1, h2, h3⟩ := extract_le32 b0 b1 b2 b3
  rw [bytes32, h0, h1, h2, h3]

theorem encReg_ofBits (op b : Byte) : encReg op (Reg.ofBits (b.extractLsb' 0 3)) = [op, b &&& 0x07#8] := by
  rw [encReg, Reg.toBits_ofBits, packModRR_extract]

theorem encTwoRegs_ofBits (op b : Byte) :
    encTwoRegs op (Reg.ofBits (unpackModRR b).destOrSrc) (Reg.ofBits (unpackModRR b).base) = [op, b &&& 0x3F#8] := by
  rw [encTwoRegs, Reg.toBits_ofBits, Reg.toBits_ofBits, packModRR_unpack_clearIndex]

theorem encModRR_ofBits (op b : Byte) :
    encModRR op (Reg.ofBits (unpackModRR b).destOrSrc) (Reg.ofBits (unpackModRR b).base)
      (IdxReg.ofBits (unpackModRR b).index) = [op, b] := by
  rw [encModRR, Reg.toBits_ofBits, Reg.toBits_ofBits, IdxReg.toBits_ofBits, packModRR_unpackModRR]

/-- Operand bytes that build an instruction are its operand bytes in the encoder's layout, up to the unused bits. -/
theorem Form.EncodesWith.encode_of_build {op : Byte} {form : Form} (henc : form.EncodesWith op) {operands : List Byte}
    {i : Instr} (h : form.build operands = some (i, [])) : encode i = op :: keepUsedBits form operands := by
  match form, operands, h with
  | .none mk, [], rfl => exact henc
  | .reg mk, [b], rfl => exact (henc _).trans (encReg_ofBits op b)
  | .twoRegs mk, [b], rfl => exact (henc _ _).trans (encTwoRegs_ofBits op b)
  | .modRR mk, [b], rfl => rw [henc, encModRR_ofBits, keepUsedBits_of_all_used rfl]
  | .modRROff mk, [b, d0, d1, d2, d3], rfl =>
    rw [henc, encModRROff, encModRR_ofBits, bytes32_le32, keepUsedBits_of_all_used rfl]
    rfl
  | .flag mk, [b], rfl => rw [henc, encByte, keepUsedBits_of_all_used rfl]
  | .imm32ToReg mk, [b, d0, d1, d2, d3], rfl =>
    rw [henc, encImm32ToReg, encReg_ofBits, bytes32_le32]
    rfl
  | .jmpDest16 mk, [d0, d1], rfl => rw [henc, encJmpDest16, bytes16_le16, keepUsedBits_of_all_used rfl]
  | .jmpDest32 mk, [d0, d1, d2, d3], rfl => rw [henc, encJmpDest32, bytes32_le32, keepUsedBits_of_all_used rfl]
  | .intIndex mk, [b], rfl => rw [henc, encByte, keepUsedBits_of_all_used rfl]

/-- Settles O2: the operand bytes by `Form.operands_of_build`, their encoding by the opcode's row of the map. -/
theorem encodeOfDecodeKeepsTheUsedBits : Obligations.EncodeOfDecodeKeepsTheUsedBits := by
  intro op form bs rest i hform hdecode
  obtain ⟨operands, hbs, hlen, hbuild⟩ := Form.operands_of_build (build_of_decode hform hdecode)
  exact ⟨operands, hbs, hlen, (encodesWith_of_formOf hform).encode_of_build hbuild⟩

/-! ### Words written out (30_encoding R79 to R94) -/

/-- Settles O4, by running the decoder on the eight words. -/
theorem writtenOutWordsDecode : Obligations.WrittenOutWordsDecode :=
  ⟨rfl, rfl, rfl, rfl, rfl, rfl, rfl, rfl⟩

end Sys2Proof

namespace Sys2Proof.Machine

/-! ### An unassigned opcode byte (30_encoding R95) -/

theorem State.fetchInstr_of_unassigned {s : State} (hmapped : s.isMapped s.pc = true)
    (hop : formOf (s.byteAt s.pc) = none) :
    s.fetchInstr = .error ((s.withPc (s.pc + 1#32)).raise .unknownOpcode (zext8 (s.byteAt s.pc))) := by
  simp only [State.fetchInstr, State.fetch8_of_mapped hmapped, hop]

/-- The byte values outside the ranges of R93, counted in two halves. -/
theorem unassigned_count : ((List.range 256).filter fun n => !assignedOpcode n).length = 157 := by
  have hhalves : List.range 256 = List.range' 0 128 ++ List.range' 128 128 := by
    rw [List.range_eq_range', List.range'_append_1]
  simp only [hhalves, List.filter_append, List.length_append]
  decide

/-- Settles O5: the fetch raises at an opcode byte that is in no row of the map. -/
theorem unknownOpcodeByteFaults : Obligations.UnknownOpcodeByteFaults := by
  refine ⟨fun s hrun hmapped hunassigned => ?_, unassigned_count⟩
  have hop := formOf_eq_none_of_unassigned hunassigned
  exact ⟨_, step_of_fetch_error hrun (State.fetchInstr_of_unassigned hmapped hop), rfl⟩

/-! ### Bytes that decode, fetched and run (30_encoding R78) -/

/-- The byte at an address comes first, then those from the next address on. -/
theorem State.map_byteAt_range_succ (s : State) (a : Word) (n : Nat) :
    ((List.range (n + 1)).map fun k => s.byteAt (a + BitVec.ofNat 32 k)) =
      s.byteAt a :: (List.range n).map fun k => s.byteAt (a + 1#32 + BitVec.ofNat 32 k) := by
  simp [List.range_succ_eq_map, addr_succ, Function.comp_def]

theorem State.portOk_succ {s : State} {a : Word} {n : Nat} (h : s.portOk a (n + 1) = true) :
    s.isMapped a = true ∧ s.portOk (a + 1#32) n = true := by
  rw [State.portOk_iff] at h ⊢
  exact ⟨by simpa using h 0 n.succ_pos, fun k hk => addr_succ a k ▸ h (k + 1) (by omega)⟩

/-- The fetch reads exactly the bytes the decoder reads. -/
theorem State.fetchInstr_of_decode {s : State} {i : Instr} {n : Nat} (hport : s.portOk s.pc n = true)
    (hdecode : decode ((List.range n).map fun k => s.byteAt (s.pc + BitVec.ofNat 32 k)) = .ok (i, [])) :
    s.fetchInstr = .ok (i, s.withPc (s.pc + BitVec.ofNat 32 n)) := by
  cases n with
  | zero => cases hdecode
  | succ n =>
    rw [State.map_byteAt_range_succ] at hdecode
    obtain ⟨hmapped, hoperands⟩ := State.portOk_succ hport
    obtain ⟨form, hform⟩ := formOf_of_decode hdecode
    have hbuild := build_of_decode hform hdecode
    obtain ⟨operands, hbs, hlen, -⟩ := Form.operands_of_build hbuild
    obtain rfl : n = form.operandBytes := by simpa [hlen] using congrArg List.length hbs
    have hbytes := (s.withPc (s.pc + 1#32)).fetchBytes_of_mapped form.operandBytes hoperands
    simp only [State.withPc_pc, State.withPc_withPc, State.byteAt_withPc, addr_succ _ form.operandBytes] at hbytes
    simp only [State.fetchInstr, State.fetch8_of_mapped hmapped, hform, hbytes, hbuild]

theorem completed_iff (i : Instr) (t : State) : completed i t = true ↔ t.mode = .running ∨ i = .halt := by
  simp [completed]

theorem State.serviceIrq_of_request {s : State} {n : Byte} (hi : s.flags.i = true) (hirq : s.irq = some n) :
    s.serviceIrq = (s.withIrq none).callHook n := by
  simp [State.serviceIrq, hi, hirq]

theorem State.serviceIrq_of_not {s : State} (h : s.flags.i = false ∨ s.irq = none) : s.serviceIrq = s := by
  rcases s.serviceIrq_cases with hsame | ⟨n, hirq, hi, -⟩
  · exact hsame
  · simp [hi, hirq] at h

/-- Settles O7: the fetch by `State.fetchInstr_of_decode`, the end of the step by whether the instruction completed. -/
theorem stepRunsTheDecodedInstruction : Obligations.StepRunsTheDecodedInstruction := by
  refine ⟨fun s i n hrun hport hdecode => ?_, fun i u => ⟨fun hdone hi n hirq => ?_, fun hidle => ?_⟩⟩
  · have hfetch := State.fetchInstr_of_decode hport hdecode
    cases hexec : exec i (s.withPc (s.pc + BitVec.ofNat 32 n)) <;> simp [step, hrun, hfetch, hexec]
  · rw [endOfStep, if_pos ((completed_iff i u).mpr hdone), State.serviceIrq_of_request hi hirq]
  · by_cases hdone : completed i u = true
    · have hnone := hidle.resolve_left (not_not_intro ((completed_iff i u).mp hdone))
      rw [endOfStep, if_pos hdone, State.serviceIrq_of_not hnone]
    · rw [endOfStep, if_neg hdone]

end Sys2Proof.Machine

/-! The integer instructions (40_alu_integer): what truncation does to a quotient and to a shifted value, the result and
flags of each operation, and what a two-register instruction writes. -/

namespace Sys2Proof

/-! ### Quotients, remainders and shifts as words -/

theorem trunc32_tdiv (x y : Word) : trunc32 (x.toInt.tdiv y.toInt) = x.sdiv y :=
  BitVec.eq_of_toInt_eq (by rw [trunc32, BitVec.toInt_ofInt, BitVec.toInt_sdiv])

theorem trunc32_sub_mul_tdiv (x y : Word) : trunc32 (x.toInt - y.toInt * x.toInt.tdiv y.toInt) = x.srem y := by
  rw [← Int.tmod_def, ← BitVec.toInt_srem, trunc32_toInt]

/-- A truncated remainder is 0 or has the sign of the dividend. -/
theorem tmod_mul_self_nonneg (a b : Int) : 0 ≤ a.tmod b * a := by
  rcases le_total 0 a with ha | ha
  · exact mul_nonneg (Int.tmod_nonneg b ha) ha
  · have hneg : 0 ≤ -a.tmod b := Int.neg_tmod a b ▸ Int.tmod_nonneg b (neg_nonneg.mpr ha)
    exact mul_nonneg_of_nonpos_of_nonpos (neg_nonneg.mp hneg) ha

theorem trunc32_udiv (x y : Word) : trunc32 ((x.toNat / y.toNat : Nat) : Int) = x / y := by
  rw [← BitVec.toNat_udiv, trunc32_toNat]

theorem trunc32_shiftRight (x : Word) (n : Nat) : trunc32 ((x.toNat >>> n : Nat) : Int) = x >>> n := by
  rw [← BitVec.toNat_ushiftRight, trunc32_toNat]

theorem trunc32_fdiv_two_pow (x : Word) (n : Nat) : trunc32 (x.toInt.fdiv (2 ^ n)) = x.sshiftRight n := by
  rw [Int.fdiv_eq_ediv_of_nonneg _ (by positivity), trunc32, BitVec.sshiftRight, Int.shiftRight_eq_div_pow,
    Nat.cast_pow, Nat.cast_ofNat]

theorem trunc32_mul_two_pow (x : Word) (n : Nat) : trunc32 ((x.toNat * 2 ^ n : Nat) : Int) = x <<< n := by
  rw [trunc32_natCast, ← Nat.shiftLeft_eq]
  rfl

/-- Below the width, R138's two shifts are a rotate; at a count of 0 the second one would shift every bit out. -/
theorem ite_or_shift_eq_rotateLeft (x : Word) {n : Nat} (hn : n < 32) :
    (if n = 0 then x else x <<< n ||| x >>> (32 - n)) = x.rotateLeft n := by
  rw [BitVec.rotateLeft_eq_rotateLeftAux_of_lt hn]
  split
  · subst n
    simp [BitVec.rotateLeftAux, BitVec.ushiftRight_eq_zero]
  · rfl

/-- The same for R139. -/
theorem ite_or_shift_eq_rotateRight (x : Word) {n : Nat} (hn : n < 32) :
    (if n = 0 then x else x >>> n ||| x <<< (32 - n)) = x.rotateRight n := by
  rw [BitVec.rotateRight_eq_rotateRightAux_of_lt hn]
  split
  · subst n
    simp [BitVec.rotateRightAux, BitVec.shiftLeft_eq_zero]
  · rfl

end Sys2Proof

namespace Sys2Proof.Machine

/-! ### The operations (40_alu_integer R121 to R139) -/

/-- An exact result that truncates to `v`: the flags are those of `v`, with the carry given. -/
theorem arithOut_of_trunc32 {x y v : Word} {t : Int} (h : trunc32 t = v) (f : Flags) (carry : Bool) :
    arithOut x y f t carry = ⟨v, resultFlags f v carry (signOverflow x y v)⟩ := by
  subst h
  rw [arithOut_eq, ovf_eq]
  rfl

theorem aluAdd_eq (x y : Word) (f : Flags) :
    aluAdd x y f =
      ⟨x + y, resultFlags f (x + y) (decide (2 ^ 32 ≤ x.toNat + y.toNat)) (signOverflow x y (x + y))⟩ := by
  have hcarry : decide ((x.toNat : Int) + y.toNat ≥ 2 ^ 32) = decide (2 ^ 32 ≤ x.toNat + y.toNat) :=
    decide_eq_decide.mpr (by omega)
  rw [aluAdd, arithOut_of_trunc32 (v := x + y) (by simp [trunc32_add]), hcarry]

theorem aluAdc_eq (x y : Word) (f : Flags) :
    aluAdc x y f =
      ⟨x + y + BitVec.ofNat 32 f.c.toNat, resultFlags f (x + y + BitVec.ofNat 32 f.c.toNat)
        (decide (2 ^ 32 ≤ x.toNat + y.toNat + f.c.toNat)) (signOverflow x y (x + y + BitVec.ofNat 32 f.c.toNat))⟩ := by
  have hcarry : decide ((x.toNat : Int) + y.toNat + f.c.toNat ≥ 2 ^ 32) =
      decide (2 ^ 32 ≤ x.toNat + y.toNat + f.c.toNat) := decide_eq_decide.mpr (by omega)
  rw [aluAdc, arithOut_of_trunc32 (v := x + y + BitVec.ofNat 32 f.c.toNat)
    (by simp [trunc32_add, trunc32_natCast f.c.toNat]), hcarry]

theorem aluSub_eq (x y : Word) (f : Flags) :
    aluSub x y f = ⟨x - y, resultFlags f (x - y) (decide (x.toNat < y.toNat)) (signOverflow x y (x - y))⟩ := by
  have hborrow : decide ((x.toNat : Int) - y.toNat < 0) = decide (x.toNat < y.toNat) :=
    decide_eq_decide.mpr (by omega)
  rw [aluSub, arithOut_of_trunc32 (v := x - y) (by simp [trunc32_sub]), hborrow]

theorem aluSbb_eq (x y : Word) (f : Flags) :
    aluSbb x y f =
      ⟨x - y - BitVec.ofNat 32 f.c.toNat, resultFlags f (x - y - BitVec.ofNat 32 f.c.toNat)
        (decide (x.toNat < y.toNat + f.c.toNat)) (signOverflow x y (x - y - BitVec.ofNat 32 f.c.toNat))⟩ := by
  have hborrow : decide ((x.toNat : Int) - y.toNat - f.c.toNat < 0) = decide (x.toNat < y.toNat + f.c.toNat) :=
    decide_eq_decide.mpr (by omega)
  rw [aluSbb, arithOut_of_trunc32 (v := x - y - BitVec.ofNat 32 f.c.toNat)
    (by simp [trunc32_sub, trunc32_natCast f.c.toNat]), hborrow]

/-- The low 32 bits of the signed product are the product of the words. -/
theorem trunc32_toInt_mul_toInt (x y : Word) : trunc32 (x.toInt * y.toInt) = x * y := by simp [trunc32_mul]

theorem aluMul_eq (x y : Word) (f : Flags) : aluMul x y f = ⟨x * y, resultFlags f (x * y) f.c f.o⟩ := by
  rw [aluMul, trunc32_toInt_mul_toInt]
  exact mulOut_eq ..

theorem aluUmul_eq (x y : Word) (f : Flags) : aluUmul x y f = ⟨x * y, resultFlags f (x * y) f.c f.o⟩ := by
  rw [aluUmul, trunc32_mul, trunc32_toNat, trunc32_toNat]
  exact mulOut_eq ..

theorem aluMul_eq_aluUmul : aluMul = aluUmul := by
  funext x y f
  rw [aluMul_eq, aluUmul_eq]

theorem aluDiv_eq (x y : Word) (f : Flags) : aluDiv x y f = ⟨x.sdiv y, resultFlags f (x.sdiv y) f.c false⟩ := by
  rw [aluDiv, trunc32_tdiv]
  exact divOut_eq ..

theorem aluUdiv_eq (x y : Word) (f : Flags) : aluUdiv x y f = ⟨x / y, resultFlags f (x / y) f.c false⟩ := by
  rw [aluUdiv, trunc32_udiv]
  exact divOut_eq ..

theorem aluRem_eq (x y : Word) (f : Flags) : aluRem x y f = ⟨x.srem y, resultFlags f (x.srem y) f.c false⟩ := by
  rw [aluRem, trunc32_sub_mul_tdiv]
  exact divOut_eq ..

/-- The flags of the logic, shift and rotate operations are those of their result, with the carry given and O 0. -/
theorem logicOut_eq_resultFlags (f : Flags) (v : Word) (carry : Bool) :
    logicOut f v carry = ⟨v, resultFlags f v carry false⟩ := logicOut_eq f v carry

/-- The last bit shifted out, 0 for a count of 0, as one conjunction. -/
theorem ite_zero_false (n : Nat) (b : Bool) : (if n = 0 then false else b) = (decide (n ≠ 0) && b) := by
  by_cases hn : n = 0 <;> simp [hn]

theorem aluShr_eq (x y : Word) (f : Flags) :
    aluShr x y f = ⟨x >>> shiftCount y,
      resultFlags f (x >>> shiftCount y) (decide (shiftCount y ≠ 0) && x.getLsbD (shiftCount y - 1)) false⟩ := by
  rw [aluShr, trunc32_shiftRight, ite_zero_false, logicOut_eq_resultFlags]

theorem aluSar_eq (x y : Word) (f : Flags) :
    aluSar x y f = ⟨x.sshiftRight (shiftCount y), resultFlags f (x.sshiftRight (shiftCount y))
      (decide (shiftCount y ≠ 0) && x.getLsbD (shiftCount y - 1)) false⟩ := by
  rw [aluSar, trunc32_fdiv_two_pow, ite_zero_false, logicOut_eq_resultFlags]

theorem aluShl_eq (x y : Word) (f : Flags) :
    aluShl x y f = ⟨x <<< shiftCount y,
      resultFlags f (x <<< shiftCount y) (decide (shiftCount y ≠ 0) && x.getLsbD (32 - shiftCount y)) false⟩ := by
  rw [aluShl, trunc32_mul_two_pow, ite_zero_false, logicOut_eq_resultFlags]

theorem aluRol_eq (x y : Word) (f : Flags) :
    aluRol x y f = ⟨x.rotateLeft (shiftCount y), resultFlags f (x.rotateLeft (shiftCount y)) false false⟩ := by
  rw [aluRol, trunc32_mul_two_pow, trunc32_shiftRight, ite_or_shift_eq_rotateLeft x (shiftCount_lt y),
    logicOut_eq_resultFlags]

theorem aluRor_eq (x y : Word) (f : Flags) :
    aluRor x y f = ⟨x.rotateRight (shiftCount y), resultFlags f (x.rotateRight (shiftCount y)) false false⟩ := by
  rw [aluRor, trunc32_shiftRight, trunc32_mul_two_pow, ite_or_shift_eq_rotateRight x (shiftCount_lt y),
    logicOut_eq_resultFlags]

/-! ### What a two-register instruction writes (40_alu_integer R120) -/

theorem State.wrote_withFlags_writeReg (s : State) (f : Flags) (d : Reg) (v : Word) :
    Wrote s ((s.withFlags f).writeReg d v) d v :=
  ⟨fun q hq => by rw [State.reg_writeReg_other _ v hq, State.reg_withFlags],
    by rw [State.reg_writeReg, if_pos rfl]⟩

/-- An operation that answers `v` with its flags makes an instruction that writes just these. -/
theorem State.aluWrite_effect {s : State} {op : Word → Word → Flags → AluOut} {d r : Reg} {v : Word} {c o : Bool}
    (hop : op (s.reg d) (s.reg r) s.flags = ⟨v, resultFlags s.flags v c o⟩) :
    AluEffect s (s.aluWrite op d r) d v c o := by
  rw [State.aluWrite_eq, hop]
  exact ⟨s.wrote_withFlags_writeReg _ d v, by simp, State.byteAt_congr (by simp), by simp [SameRest]⟩

theorem settle_aluDivide_of_ne {s : State} (op : Word → Word → Flags → AluOut) (d : Reg) {r : Reg}
    (h : s.reg r ≠ 0#32) : settle (s.aluDivide op d r) = .next (s.aluWrite op d r) := by
  rw [State.aluDivide_of_ne op d h, settle_ok]

theorem settle_aluDivide_of_zero {s : State} (op : Word → Word → Flags → AluOut) (d : Reg) {r : Reg}
    (h : s.reg r = 0#32) : settle (s.aluDivide op d r) = .next (s.raise .divideByZero 0#32) := by
  rw [State.aluDivide_of_zero op d h, settle_error]

theorem State.raised_raise (s : State) (cause : Cause) (info : Word) : Raised s (s.raise cause info) cause info := rfl

/-! ### Sums and differences (40_alu_integer R122 to R126) -/

/-- Settles O22, from the result and flags of the two operations. -/
theorem addAndAdcResult : Obligations.AddAndAdcResult := fun _ _ _ =>
  ⟨⟨_, rfl, State.aluWrite_effect (aluAdd_eq ..)⟩, _, rfl, State.aluWrite_effect (aluAdc_eq ..)⟩

/-- Settles O23, from the result and flags of the two operations; `CMP` takes the flags of `SUB` alone. -/
theorem subSbbAndCmpResult : Obligations.SubSbbAndCmpResult := by
  refine fun s d r => ⟨⟨_, rfl, State.aluWrite_effect (aluSub_eq ..)⟩, ⟨_, rfl, State.aluWrite_effect (aluSbb_eq ..)⟩,
    s.aluFlags aluSub d r, rfl, ?_⟩
  rw [State.aluFlags, aluSub_eq]
  exact ⟨s.reg_withFlags _, rfl, fun _ => rfl, by simp [SameRest]⟩

/-! ### Products (40_alu_integer R127, R128) -/

/-- Settles O24: both products are the product of the words, so the two operations are one. -/
theorem mulAndUmulResult : Obligations.MulAndUmulResult := by
  intro s d r
  have hmul : AluEffect s (s.aluWrite aluMul d r) d (s.reg d * s.reg r) s.flags.c s.flags.o :=
    State.aluWrite_effect (aluMul_eq ..)
  refine ⟨⟨_, rfl, ?_⟩, s.aluWrite aluMul d r, ?_, hmul, rfl⟩
  · rwa [trunc32_toInt_mul_toInt]
  · rw [aluMul_eq_aluUmul]
    rfl

/-! ### Quotients and remainders (40_alu_integer R129 to R131, R141) -/

/-- Settles O25: the divisor is tested first, and one that is not 0 lets the operation write. -/
theorem divUdivAndRemResult : Obligations.DivUdivAndRemResult := by
  refine fun s d r => ⟨fun hne => ?_, fun hzero => ?_⟩
  · exact ⟨⟨_, settle_aluDivide_of_ne aluDiv d hne, State.aluWrite_effect (aluDiv_eq ..)⟩,
      ⟨_, settle_aluDivide_of_ne aluUdiv d hne, State.aluWrite_effect (aluUdiv_eq ..)⟩,
      _, settle_aluDivide_of_ne aluRem d hne, State.aluWrite_effect (aluRem_eq ..)⟩
  · exact ⟨⟨_, settle_aluDivide_of_zero aluDiv d hzero, s.raised_raise ..⟩,
      ⟨_, settle_aluDivide_of_zero aluUdiv d hzero, s.raised_raise ..⟩,
      _, settle_aluDivide_of_zero aluRem d hzero, s.raised_raise ..⟩

theorem AluEffect.reg_dest {s t : State} {d : Reg} {v : Word} {c o : Bool} (h : AluEffect s t d v c o)
    (hd : d ≠ .zero) : t.reg d = v := by
  obtain ⟨⟨-, hdest⟩, -⟩ := h
  rw [hdest, if_neg hd]

/-- Settles O26 with the exact quotient, of which the remainder is what is left of the dividend. -/
theorem quotientAndRemainderFitTogether : Obligations.QuotientAndRemainderFitTogether := by
  intro s t u d r hd hne hdiv hrem
  have ht : t.reg d = (s.reg d).sdiv (s.reg r) := by
    obtain rfl := Host.Outcome.next.inj (hdiv.symm.trans (settle_aluDivide_of_ne aluDiv d hne))
    exact (State.aluWrite_effect (aluDiv_eq ..)).reg_dest hd
  have hu : (u.reg d).toInt = (s.reg d).toInt.tmod (s.reg r).toInt := by
    obtain rfl := Host.Outcome.next.inj (hrem.symm.trans (settle_aluDivide_of_ne aluRem d hne))
    rw [(State.aluWrite_effect (aluRem_eq ..)).reg_dest hd, BitVec.toInt_srem]
  rw [ht, hu, ← trunc32_tdiv]
  refine ⟨_, rfl, (Int.mul_tdiv_add_tmod ..).symm, ?_, tmod_mul_self_nonneg ..⟩
  have hdivisor : (s.reg r).toInt ≠ 0 := fun h => hne (BitVec.eq_of_toInt_eq (h.trans BitVec.toInt_zero.symm))
  rw [Int.natAbs_tmod]
  exact Nat.mod_lt _ (Int.natAbs_pos.mpr hdivisor)

/-! ### Bitwise operations, shifts and rotates (40_alu_integer R132 to R139) -/

/-- Settles O27, from the flags that the logic operations share. -/
theorem andOrXorResult : Obligations.AndOrXorResult := fun _ _ _ =>
  ⟨⟨_, rfl, State.aluWrite_effect (logicOut_eq_resultFlags ..)⟩,
    ⟨_, rfl, State.aluWrite_effect (logicOut_eq_resultFlags ..)⟩,
    _, rfl, State.aluWrite_effect (logicOut_eq_resultFlags ..)⟩

/-- Settles O28, from the result and flags of the three shifts at the count that the source register holds. -/
theorem shiftResult : Obligations.ShiftResult := by
  intro s d r n hn
  obtain rfl : n = shiftCount (s.reg r) := hn.trans (shiftCount_eq _).symm
  exact ⟨⟨_, rfl, State.aluWrite_effect (aluShr_eq ..)⟩, ⟨_, rfl, State.aluWrite_effect (aluSar_eq ..)⟩,
    _, rfl, State.aluWrite_effect (aluShl_eq ..)⟩

/-- Settles O29, from the result and flags of the two rotates at the count that the source register holds. -/
theorem rotateResult : Obligations.RotateResult := by
  intro s d r n hn
  obtain rfl : n = shiftCount (s.reg r) := hn.trans (shiftCount_eq _).symm
  exact ⟨⟨_, rfl, State.aluWrite_effect (aluRol_eq ..)⟩, _, rfl, State.aluWrite_effect (aluRor_eq ..)⟩

end Sys2Proof.Machine

/-! The float instructions (41_alu_float). A pattern that is not a NaN is its sign and its bits 30:0, and these count
the binary32 magnitudes upwards from zero, the infinity last. Rounding is said once on that scale; the statements about
patterns, overflow, results and order are read off it. -/

namespace Sys2Proof.Machine

/-! ### A pattern as a sign and bits 30:0 (41_alu_float R150) -/

/-- Bits 30:0 of a pattern. -/
def lowBits (v : Word) : Nat := (v.extractLsb' 0 31).toNat

/-- Bits 30:0 of an infinity: every finite pattern holds less, every NaN more. -/
def infLow : Nat := 255 * 2 ^ 23

theorem lowBits_eq (v : Word) : lowBits v = v.toNat % 2 ^ 31 := by
  simp [lowBits]

theorem expField_eq (v : Word) : expField v = lowBits v / 2 ^ 23 := by
  rw [expField, BitVec.extractLsb'_toNat, Nat.shiftRight_eq_div_pow, lowBits_eq]
  omega

theorem fracField_eq (v : Word) : fracField v = lowBits v % 2 ^ 23 := by
  rw [fracField, BitVec.extractLsb'_toNat, Nat.shiftRight_zero, lowBits_eq]
  omega

theorem lowBits_lt (v : Word) : lowBits v < 2 ^ 31 := (v.extractLsb' 0 31).isLt

theorem isNanPattern_iff (v : Word) : isNanPattern v = true ↔ infLow < lowBits v := by
  have := lowBits_lt v
  simp only [isNanPattern, expField_eq, fracField_eq, infLow, Bool.and_eq_true, decide_eq_true_eq]
  omega

theorem isInfPattern_iff (v : Word) : isInfPattern v ↔ lowBits v = infLow :=
  BitVec.toNat_inj.symm

theorem isZeroPattern_iff (v : Word) : isZeroPattern v ↔ lowBits v = 0 :=
  BitVec.toNat_inj.symm

theorem isFinitePattern_iff (v : Word) : isFinitePattern v ↔ lowBits v < infLow := by
  have := lowBits_lt v
  rw [isFinitePattern, ne_eq, ← BitVec.toNat_inj]
  change ¬expField v = 255 ↔ _
  rw [expField_eq, infLow]
  omega

theorem signed32_toNat (neg : Bool) {low : Nat} (h : low < 2 ^ 31) :
    (signed32 neg low).toNat = (if neg then 2 ^ 31 else 0) + low := by
  rw [signed32, BitVec.toNat_ofNat]
  split <;> omega

theorem signed32_msb (neg : Bool) {low : Nat} (h : low < 2 ^ 31) : (signed32 neg low).msb = neg := by
  rw [BitVec.msb_eq_decide, signed32_toNat neg h]
  cases neg
  · simpa using h
  · simp

theorem lowBits_signed32 (neg : Bool) {low : Nat} (h : low < 2 ^ 31) : lowBits (signed32 neg low) = low := by
  rw [lowBits_eq, signed32_toNat neg h]
  split <;> omega

theorem signed32_msb_lowBits (v : Word) : signed32 v.msb (lowBits v) = v := by
  apply BitVec.eq_of_toNat_eq
  rw [signed32_toNat _ (lowBits_lt v), BitVec.msb_eq_decide, lowBits_eq]
  have := v.isLt
  simp only [decide_eq_true_eq]
  split <;> omega

/-- The last bit of a pattern is the parity of its bits 30:0. -/
theorem signed32_getLsbD_zero (neg : Bool) {low : Nat} (h : low < 2 ^ 31) :
    (signed32 neg low).getLsbD 0 = decide (low % 2 = 1) := by
  rw [BitVec.getLsbD, signed32_toNat neg h, Nat.testBit_zero]
  split
  · congr 2
    omega
  · rw [Nat.zero_add]

theorem infPattern_eq (neg : Bool) : infPattern neg = signed32 neg infLow := by cases neg <;> rfl

theorem zeroPattern_eq (neg : Bool) : zeroPattern neg = signed32 neg 0 := by cases neg <;> rfl

/-- The order of the values is the signed order of bits 30:0. -/
theorem orderKey_eq (v : Word) : orderKey v = signedUnits v.msb (lowBits v) := rfl

/-! ### The magnitudes in rising order -/

/-- The exponent of the last place above `2^-149`, of a magnitude with these bits 30:0. -/
def placeOf (low : Nat) : Nat := low / 2 ^ 23 - 1

/-- The magnitude that bits 30:0 stand for, in units of `2^-149`, the exponent field unbounded: `magOf infLow` is the
first magnitude that is too large for a finite pattern. -/
def magOf (low : Nat) : Nat := (low - placeOf low * 2 ^ 23) * 2 ^ placeOf low

/-- `k` units of `2^j` are a magnitude with its last place at `2^j`: the leading one stands at bit 23, or lower in the
lowest place. `k = 2^24` is the first magnitude of the next place. -/
structure IsPlaced (j k : Nat) : Prop where
  le : k ≤ 2 ^ 24
  leading : j = 0 ∨ 2 ^ 23 ≤ k

theorem exists_isPlaced (low : Nat) : ∃ j k, IsPlaced j k ∧ k < 2 ^ 24 ∧ low = j * 2 ^ 23 + k := by
  refine ⟨placeOf low, low - placeOf low * 2 ^ 23, ⟨?_, ?_⟩, ?_, ?_⟩ <;> rw [placeOf] <;> omega

theorem IsPlaced.magOf_eq {j k : Nat} (h : IsPlaced j k) : magOf (j * 2 ^ 23 + k) = k * 2 ^ j := by
  obtain ⟨hle, hlead⟩ := h
  rcases Nat.lt_or_eq_of_le hle with hlt | rfl
  · have hplace : placeOf (j * 2 ^ 23 + k) = j := by
      rw [placeOf]
      omega
    rw [magOf, hplace, Nat.add_sub_cancel_left]
  · have hplace : placeOf (j * 2 ^ 23 + 2 ^ 24) = j + 1 := by
      rw [placeOf]
      omega
    rw [magOf, hplace, show j * 2 ^ 23 + 2 ^ 24 - (j + 1) * 2 ^ 23 = 2 ^ 23 by omega, Nat.pow_succ]
    ring

theorem magOf_zero : magOf 0 = 0 := rfl

theorem magOf_one : magOf 1 = 1 := rfl

theorem magOf_infLow : magOf infLow = 2 ^ 128 * 2 ^ 149 := by
  have h : IsPlaced 254 (2 ^ 23) := ⟨by decide, by decide⟩
  exact h.magOf_eq

/-- The largest finite magnitude. -/
theorem magOf_pred_infLow : magOf (infLow - 1) = (2 ^ 24 - 1) * 2 ^ 253 := by
  have h : IsPlaced 253 (2 ^ 24 - 1) := ⟨by decide, by decide⟩
  exact h.magOf_eq

theorem magOf_strictMono : StrictMono magOf := by
  refine strictMono_nat_of_lt_succ fun low => ?_
  obtain ⟨j, k, hplaced, hlt, rfl⟩ := exists_isPlaced low
  have hsucc : IsPlaced j (k + 1) := ⟨hlt, hplaced.leading.imp_right Nat.le_succ_of_le⟩
  rw [hplaced.magOf_eq, Nat.add_assoc, hsucc.magOf_eq]
  exact Nat.mul_lt_mul_of_pos_right k.lt_succ_self j.two_pow_pos

theorem magOf_eq_zero (low : Nat) : magOf low = 0 ↔ low = 0 :=
  magOf_strictMono.injective.eq_iff (b := 0)

theorem magOf_lt_iff (low : Nat) : magOf low < 2 ^ 128 * 2 ^ 149 ↔ low < infLow := by
  rw [← magOf_infLow, magOf_strictMono.lt_iff_lt]

/-- The last place of a magnitude is where its logarithm puts it. -/
theorem IsPlaced.log2_sub {j k : Nat} (h : IsPlaced j k) (hlt : k < 2 ^ 24) : Nat.log2 (k * 2 ^ j) - 23 = j := by
  rcases h.leading with rfl | hlead
  · rcases Nat.eq_zero_or_pos k with rfl | hk
    · rfl
    · have := (Nat.log2_lt (k := 24) hk.ne').mpr hlt
      simp only [Nat.pow_zero, Nat.mul_one]
      omega
  · have hne : k * 2 ^ j ≠ 0 := (Nat.mul_pos (by omega) j.two_pow_pos).ne'
    have hlog : Nat.log2 (k * 2 ^ j) = 23 + j := by
      rw [Nat.log2_eq_iff hne, Nat.pow_add, show 23 + j + 1 = 24 + j by omega, Nat.pow_add]
      exact ⟨Nat.mul_le_mul_right _ hlead, Nat.mul_lt_mul_of_pos_right hlt j.two_pow_pos⟩
    omega

/-- `bits` finds bits 30:0 of a magnitude again. -/
theorem finiteBits_magOf (neg : Bool) (low : Nat) : finiteBits neg (magOf low) = signed32 neg low := by
  obtain ⟨j, k, hplaced, hlt, rfl⟩ := exists_isPlaced low
  rw [finiteBits, hplaced.magOf_eq, hplaced.log2_sub hlt, Nat.mul_div_cancel _ j.two_pow_pos]

/-! ### The value of a pattern (41_alu_float R150) -/

/-- The two forms of R150, with and without a leading one, are one magnitude. -/
theorem magOf_lowBits (v : Word) :
    magOf (lowBits v) =
      if expField v = 0 then fracField v else (2 ^ 23 + fracField v) * 2 ^ (expField v - 1) := by
  rw [magOf, placeOf, ← expField_eq, fracField_eq]
  have hexp := expField_eq v
  split
  · rw [show expField v - 1 = 0 by omega, Nat.zero_mul, Nat.pow_zero, Nat.mul_one]
    omega
  · congr 1
    omega

theorem f32_of_nan {v : Word} (h : infLow < lowBits v) : f32 v = .nan := by
  obtain ⟨hexp, hfrac⟩ : expField v = 255 ∧ fracField v ≠ 0 := by
    simpa [isNanPattern] using (isNanPattern_iff v).mpr h
  simp only [f32, hexp, hfrac, ite_true, ite_false]

theorem f32_of_inf {v : Word} (h : lowBits v = infLow) : f32 v = .inf v.msb := by
  have hexp : expField v = 255 := by rw [expField_eq, h]; rfl
  have hfrac : fracField v = 0 := by rw [fracField_eq, h]; rfl
  simp only [f32, hexp, hfrac, ite_true, BitVec.msb_eq_getLsbD_last]

theorem f32_of_finite {v : Word} (h : lowBits v < infLow) : f32 v = .fin v.msb (magOf (lowBits v)) := by
  have hexp : expField v ≠ 255 := by
    rw [expField_eq]
    unfold infLow at h
    omega
  rw [magOf_lowBits]
  simp only [f32, hexp, ite_false, BitVec.msb_eq_getLsbD_last]
  split <;> rfl

/-- What a pattern is, by its bits 30:0. -/
theorem f32_cases (v : Word) :
    infLow < lowBits v ∧ f32 v = .nan ∨ lowBits v = infLow ∧ f32 v = .inf v.msb ∨
      lowBits v < infLow ∧ f32 v = .fin v.msb (magOf (lowBits v)) := by
  rcases Nat.lt_trichotomy infLow (lowBits v) with h | h | h
  · exact .inl ⟨h, f32_of_nan h⟩
  · exact .inr (.inl ⟨h.symm, f32_of_inf h.symm⟩)
  · exact .inr (.inr ⟨h, f32_of_finite h⟩)

theorem f32_eq_fin_iff {v : Word} {neg : Bool} {m : Nat} :
    f32 v = .fin neg m ↔ lowBits v < infLow ∧ v.msb = neg ∧ magOf (lowBits v) = m := by
  rcases f32_cases v with ⟨h, hv⟩ | ⟨h, hv⟩ | ⟨h, hv⟩ <;> simp [hv, h]
  omega

theorem f32_signed32 (neg : Bool) {low : Nat} (h : low < infLow) : f32 (signed32 neg low) = .fin neg (magOf low) := by
  have hlow : low < 2 ^ 31 := h.trans (by decide)
  rw [f32_eq_fin_iff, lowBits_signed32 neg hlow, signed32_msb neg hlow]
  exact ⟨h, rfl, rfl⟩

/-- The units of a pattern's fields are those of its value; an infinity counts `2^277`. -/
theorem unitsOf_eq (v : Word) : unitsOf v = signedUnits v.msb (magOf (lowBits v)) := by
  rw [magOf_lowBits]
  change (if v.msb then -(if expField v = 0 then (fracField v : Int) else (2 ^ 23 + fracField v) * 2 ^ (expField v - 1))
    else if expField v = 0 then (fracField v : Int) else (2 ^ 23 + fracField v) * 2 ^ (expField v - 1)) = _
  rw [signedUnits]
  push_cast
  rfl

/-- Settles O31, by the kind of pattern. -/
theorem floatPatternsRoundTrip : Obligations.FloatPatternsRoundTrip := by
  intro op x y v hnan
  rcases f32_cases v with ⟨h, -⟩ | ⟨h, hv⟩ | ⟨-, hv⟩
  · simp [(isNanPattern_iff v).mpr h] at hnan
  · rw [hv, resultBits, ← infLow, ← h, signed32_msb_lowBits]
  · rw [hv, resultBits, finiteBits_magOf, signed32_msb_lowBits]

/-! ### Rounding to a whole number, ties to even (41_alu_float R152) -/

theorem roundHalfEven_cases (n d : Nat) : roundHalfEven n d = n / d ∨ roundHalfEven n d = n / d + 1 := by
  simp only [roundHalfEven]
  split_ifs <;> simp

/-! ### Rounding on the scale of magnitudes (41_alu_float R152) -/

/-- The exponent of the last place that `n / d` is rounded at. -/
def roundPlace (n d : Nat) : Nat := Nat.log2 (n / d) - 23

/-- Bits 30:0 of `n / d` rounded, the exponent field unbounded. -/
def roundLow (n d : Nat) : Nat := roundPlace n d * 2 ^ 23 + roundHalfEven n (d * 2 ^ roundPlace n d)

/-- Counted in the last place, a value below `2^24`, and with a leading one above the lowest place. -/
theorem div_two_pow_roundPlace (n d : Nat) :
    n / (d * 2 ^ roundPlace n d) < 2 ^ 24 ∧ (roundPlace n d = 0 ∨ 2 ^ 23 ≤ n / (d * 2 ^ roundPlace n d)) := by
  rw [← Nat.div_div_eq_div_mul, Nat.div_lt_iff_lt_mul (Nat.two_pow_pos _),
    Nat.le_div_iff_mul_le (Nat.two_pow_pos _), ← Nat.pow_add, ← Nat.pow_add]
  refine ⟨(Nat.lt_log2_self (n := n / d)).trans_le (Nat.pow_le_pow_right two_pos ?_), ?_⟩
  · rw [roundPlace]
    omega
  · refine or_iff_not_imp_left.mpr fun hplace => ?_
    have hlog : 23 + roundPlace n d = Nat.log2 (n / d) := by
      rw [roundPlace] at hplace ⊢
      omega
    rw [hlog]
    refine Nat.log2_self_le fun hzero => hplace ?_
    rw [roundPlace, hzero]
    rfl

theorem isPlaced_round (n d : Nat) : IsPlaced (roundPlace n d) (roundHalfEven n (d * 2 ^ roundPlace n d)) := by
  obtain ⟨hlt, hlead⟩ := div_two_pow_roundPlace n d
  rcases roundHalfEven_cases n (d * 2 ^ roundPlace n d) with h | h <;> rw [h]
  · exact ⟨hlt.le, hlead⟩
  · exact ⟨hlt, hlead.imp_right Nat.le_succ_of_le⟩

theorem magOf_roundLow (n d : Nat) :
    magOf (roundLow n d) = roundHalfEven n (d * 2 ^ roundPlace n d) * 2 ^ roundPlace n d :=
  (isPlaced_round n d).magOf_eq

/-- `round_binary32` is the magnitude of the rounded bits 30:0, or the infinity they have reached. -/
theorem roundBinary32_eq (neg : Bool) (n d : Nat) :
    roundBinary32 neg n d = if roundLow n d < infLow then .fin neg (magOf (roundLow n d)) else .inf neg := by
  simp only [← magOf_lt_iff, magOf_roundLow]
  rfl

/-- No magnitude lies within one last place of another; only below a leading one alone they lie denser. -/
theorem IsPlaced.gap {j k low : Nat} (h : IsPlaced j k) (hne : low ≠ j * 2 ^ 23 + k) :
    magOf low + 2 ^ j ≤ k * 2 ^ j ∨ k * 2 ^ j + 2 ^ j ≤ magOf low ∨ (j ≠ 0 ∧ k = 2 ^ 23 ∧ magOf low < k * 2 ^ j) := by
  have hmag : magOf low ≠ k * 2 ^ j := by
    rw [← h.magOf_eq]
    exact magOf_strictMono.injective.ne hne
  obtain ⟨j', k', hplaced, hlt, rfl⟩ := exists_isPlaced low
  rw [hplaced.magOf_eq] at hmag ⊢
  rcases Nat.lt_or_ge j' j with hj | hj
  · have hfine : k' * 2 ^ j' < 2 ^ 23 * 2 ^ j := calc
      k' * 2 ^ j' < 2 ^ 24 * 2 ^ j' := Nat.mul_lt_mul_of_pos_right hlt j'.two_pow_pos
      _ = 2 ^ 23 * 2 ^ (j' + 1) := by ring
      _ ≤ 2 ^ 23 * 2 ^ j := Nat.mul_le_mul_left _ (Nat.pow_le_pow_right two_pos hj)
    have hlead : 2 ^ 23 ≤ k := h.leading.resolve_left (by omega)
    rcases Nat.lt_or_eq_of_le hlead with hk | rfl
    · have := Nat.mul_le_mul_right (2 ^ j) (Nat.succ_le_of_lt hk)
      rw [Nat.succ_mul] at this
      omega
    · exact .inr (.inr ⟨by omega, rfl, hfine⟩)
  · obtain ⟨c, hc⟩ : ∃ c, k' * 2 ^ j' = c * 2 ^ j :=
      ⟨k' * 2 ^ (j' - j), by rw [Nat.mul_assoc, ← Nat.pow_add, Nat.sub_add_cancel hj]⟩
    rw [hc] at hmag ⊢
    rcases Nat.lt_trichotomy c k with hck | rfl | hck
    · exact .inl (by simpa [Nat.succ_mul] using Nat.mul_le_mul_right (2 ^ j) (Nat.succ_le_of_lt hck))
    · exact absurd rfl hmag
    · exact .inr (.inl (by simpa [Nat.succ_mul] using Nat.mul_le_mul_right (2 ^ j) (Nat.succ_le_of_lt hck)))

/-- The rounded magnitude is the nearest to `n / d` of all, and where another is as near its last bit is 0. -/
theorem roundLow_nearest (n : Nat) {d low : Nat} (hd : 0 < d) (hne : low ≠ roundLow n d) :
    ((magOf (roundLow n d) : Int) * d - n).natAbs < ((magOf low : Int) * d - n).natAbs ∨
      ((magOf (roundLow n d) : Int) * d - n).natAbs = ((magOf low : Int) * d - n).natAbs ∧ roundLow n d % 2 = 0 := by
  obtain ⟨-, hlead⟩ := div_two_pow_roundPlace n d
  have hgap := (isPlaced_round n d).gap hne
  rw [magOf_roundLow]
  rw [roundLow] at hne ⊢
  generalize roundPlace n d = j at *
  have hunit : 0 < d * 2 ^ j := Nat.mul_pos hd j.two_pow_pos
  obtain ⟨r, hr, hhalf, heven⟩ := roundHalfEven_spec n (d * 2 ^ j) hunit
  rw [Int.abs_eq_natAbs] at hhalf heven
  generalize roundHalfEven n (d * 2 ^ j) = k at *
  have hkd : k * 2 ^ j * d = d * 2 ^ j * k := by ring
  rw [← Nat.cast_mul] at hr
  rw [← Nat.cast_mul, ← Nat.cast_mul, hkd]
  rcases hgap with hgap | hgap | ⟨hj, rfl, hgap⟩
  · have := Nat.mul_le_mul_right d hgap
    rw [Nat.add_mul, hkd, Nat.mul_comm (2 ^ j) d] at this
    omega
  · have := Nat.mul_le_mul_right d hgap
    rw [Nat.add_mul, hkd, Nat.mul_comm (2 ^ j) d] at this
    omega
  · have hbelow := Nat.mul_lt_mul_of_pos_right hgap hd
    have habove := (Nat.le_div_iff_mul_le hunit).mp (hlead.resolve_left hj)
    rw [hkd] at hbelow
    omega

/-! ### Overflow and underflow -/

/-- The last finite magnitude is odd, so the tie between it and the first one beyond goes to the infinity. -/
theorem infLow_le_roundLow (n : Nat) {d : Nat} (hd : 0 < d) :
    infLow ≤ roundLow n d ↔ (2 ^ 25 - 1) * 2 ^ 252 * d ≤ n := by
  constructor
  · intro hle
    have hmag := Nat.mul_le_mul_right d (magOf_strictMono.monotone hle)
    have hnear := roundLow_nearest n hd (low := infLow - 1) (by unfold infLow at *; omega)
    rw [magOf_pred_infLow] at hnear
    rw [magOf_infLow] at hmag
    push_cast at hnear
    omega
  · intro hle
    by_contra hlt
    have hlast : roundLow n d ≤ infLow - 1 := by omega
    have hmag := Nat.mul_le_mul_right d (magOf_strictMono.monotone hlast)
    have hnear := roundLow_nearest n hd (low := infLow) (by omega)
    rw [magOf_infLow] at hnear
    rw [magOf_pred_infLow] at hmag
    obtain ⟨htie, heven⟩ : magOf (roundLow n d) * d = (2 ^ 24 - 1) * 2 ^ 253 * d ∧ roundLow n d % 2 = 0 := by omega
    rw [← magOf_pred_infLow] at htie
    have := magOf_strictMono.injective (Nat.eq_of_mul_eq_mul_right hd htie)
    rw [this] at heven
    exact absurd heven (by decide)

/-- Up to half of the smallest magnitude rounds to zero. -/
theorem roundLow_eq_zero {n d : Nat} (hd : 0 < d) (h : 2 * n ≤ d) : roundLow n d = 0 := by
  by_contra hne
  have hnear := roundLow_nearest n hd (Ne.symm hne)
  have hpos := magOf_strictMono (Nat.pos_of_ne_zero hne)
  rw [magOf_zero] at hpos hnear
  have hmag := Nat.mul_le_mul_right d hpos
  obtain ⟨htie, heven⟩ : magOf (roundLow n d) * d = 1 * d ∧ roundLow n d % 2 = 0 := by omega
  have := magOf_strictMono.injective ((Nat.eq_of_mul_eq_mul_right hd htie).trans magOf_one.symm)
  omega

/-- A whole number of units does not round to zero unless it is zero. -/
theorem roundLow_one_eq_zero {n : Nat} : roundLow n 1 = 0 ↔ n = 0 := by
  refine ⟨fun hzero => ?_, fun h => roundLow_eq_zero one_pos (by omega)⟩
  have hnear := roundLow_nearest n one_pos (low := 1) (by omega)
  rw [hzero, magOf_zero, magOf_one] at hnear
  omega

theorem infLow_lt : infLow < 2 ^ 31 := by decide

/-- The pattern of a rounded result. -/
theorem resultBits_round (op : FloatOp) (x y : Word) (neg : Bool) (n d : Nat) :
    resultBits op x y (roundBinary32 neg n d) = signed32 neg (min (roundLow n d) infLow) := by
  rw [roundBinary32_eq]
  split
  case isTrue h => rw [Nat.min_eq_left h.le, resultBits, finiteBits_magOf]
  case isFalse h => rw [Nat.min_eq_right (Nat.le_of_not_lt h), resultBits, infLow]

/-- Settles O32, on the scale of magnitudes. -/
theorem roundingIsToNearestEven : Obligations.RoundingIsToNearestEven := by
  intro neg n d hd
  rw [← infLow_le_roundLow n hd, roundBinary32_eq]
  refine ⟨?_, fun m hm => ?_⟩
  · split <;> simp_all
  · obtain ⟨hlt, rfl⟩ : roundLow n d < infLow ∧ magOf (roundLow n d) = m := by
      split at hm <;> simp_all
    refine ⟨⟨_, f32_signed32 neg hlt⟩, fun v m' hv hne => ?_⟩
    obtain ⟨-, -, rfl⟩ := f32_eq_fin_iff.mp hv
    rw [finiteBits_magOf, signed32_getLsbD_zero neg (hlt.trans infLow_lt), ← Int.natAbs_neg, Int.neg_sub,
      ← Int.natAbs_neg (n - _), Int.neg_sub]
    have := roundLow_nearest n hd (low := lowBits v) (fun h => hne (congrArg magOf h))
    simpa using this

/-! ### Signed units -/

theorem signedUnits_zero (neg : Bool) : signedUnits neg 0 = 0 := by cases neg <;> rfl

theorem natAbs_signedUnits (neg : Bool) (m : Nat) : (signedUnits neg m).natAbs = m := by
  cases neg <;> simp [signedUnits]

theorem signedUnits_not (neg : Bool) (m : Nat) : signedUnits (!neg) m = -signedUnits neg m := by
  cases neg <;> simp [signedUnits]

theorem signedUnits_mul (p q : Bool) (m n : Nat) :
    signedUnits p m * signedUnits q n = signedUnits (p ^^ q) (m * n) := by
  cases p <;> cases q <;> simp [signedUnits]

theorem sign_signedUnits (neg : Bool) {m : Nat} (h : m ≠ 0) : (signedUnits neg m).sign = signedUnits neg 1 := by
  cases neg <;> simp [signedUnits, Int.sign_natCast_of_ne_zero h]

theorem signedUnits_neg_iff (neg : Bool) (m : Nat) : signedUnits neg m < 0 ↔ neg = true ∧ m ≠ 0 := by
  cases neg <;> simp [signedUnits]
  omega

theorem signedUnits_eq_zero (neg : Bool) (m : Nat) : signedUnits neg m = 0 ↔ m = 0 := by
  cases neg <;> simp [signedUnits]

/-- A map that keeps the order of the magnitudes, and zero, keeps the order of the signed values. -/
theorem signedUnits_lt_iff {f : Nat → Nat} (hf : StrictMono f) (hzero : f 0 = 0) (p q : Bool) (m n : Nat) :
    signedUnits p (f m) < signedUnits q (f n) ↔ signedUnits p m < signedUnits q n := by
  have hlt := hf.lt_iff_lt (a := m) (b := n)
  have hgt := hf.lt_iff_lt (a := n) (b := m)
  have hm : f m = 0 ↔ m = 0 := by simpa [hzero] using hf.injective.eq_iff (a := m) (b := 0)
  have hn : f n = 0 ↔ n = 0 := by simpa [hzero] using hf.injective.eq_iff (a := n) (b := 0)
  cases p <;> cases q <;> simp only [signedUnits, Bool.false_eq_true, if_true, if_false] <;> omega

/-- A value of smaller magnitude lies above a negative one. -/
theorem signedUnits_lt_of_natAbs_lt (neg : Bool) {t : Int} {m : Nat} (h : t.natAbs < m) :
    signedUnits neg m < t ↔ neg = true := by
  cases neg <;> simp only [signedUnits, Bool.false_eq_true, if_true, if_false, iff_true, iff_false] <;> omega

theorem lt_signedUnits_of_natAbs_lt (neg : Bool) {t : Int} {m : Nat} (h : t.natAbs < m) :
    t < signedUnits neg m ↔ (!neg) = true := by
  rw [← Int.neg_lt_neg_iff, ← signedUnits_not]
  exact signedUnits_lt_of_natAbs_lt _ (by rwa [Int.natAbs_neg])

/-- Two values of one sign are as far apart as their magnitudes. -/
theorem natAbs_signedUnits_sub (neg : Bool) (m n d : Nat) :
    (signedUnits neg m * d - signedUnits neg n).natAbs = ((m : Int) * d - n).natAbs := by
  cases neg
  · rfl
  · simp only [signedUnits, if_true, Int.neg_mul]
    omega

/-- Two values of different signs are apart by both magnitudes. -/
theorem natAbs_signedUnits_not_sub (neg : Bool) (m n d : Nat) :
    (signedUnits (!neg) m * d - signedUnits neg n).natAbs = m * d + n := by
  have hcast : ((m * d : Nat) : Int) = m * d := Nat.cast_mul ..
  cases neg <;> simp [signedUnits] <;> omega

theorem unitsOf_signed32 (neg : Bool) {low : Nat} (h : low < 2 ^ 31) :
    unitsOf (signed32 neg low) = signedUnits neg (magOf low) := by
  rw [unitsOf_eq, signed32_msb neg h, lowBits_signed32 neg h]

/-- The order of the patterns is that of the values they stand for, an infinity at `2^277` units. -/
theorem unitsOf_lt_iff (v w : Word) : unitsOf v < unitsOf w ↔ orderKey v < orderKey w := by
  rw [unitsOf_eq, unitsOf_eq, orderKey_eq, orderKey_eq, signedUnits_lt_iff magOf_strictMono magOf_zero]

/-! ### Rounded signed values (41_alu_float R152) -/

theorem nearest_signed32 (neg : Bool) (n : Nat) {d : Nat} (hd : 0 < d) (hlt : roundLow n d < infLow) :
    Nearest (signedUnits neg n) d (signed32 neg (roundLow n d)) := by
  have hlow := hlt.trans infLow_lt
  refine ⟨(isFinitePattern_iff _).mpr (by rwa [lowBits_signed32 neg hlow]), fun v _ hne => ?_⟩
  rw [signed32_getLsbD_zero neg hlow]
  rw [unitsOf_signed32 neg hlow, unitsOf_eq] at hne ⊢
  rw [natAbs_signedUnits_sub]
  obtain hsign | hsign : v.msb = neg ∨ v.msb = !neg := by cases v.msb <;> cases neg <;> simp
  all_goals rw [hsign] at hne ⊢
  · rw [natAbs_signedUnits_sub]
    have hother : lowBits v ≠ roundLow n d := fun h => hne (by rw [h])
    simpa using roundLow_nearest n hd hother
  · rw [natAbs_signedUnits_not_sub]
    have hnonzero : roundLow n d = 0 → magOf (lowBits v) ≠ 0 := by
      intro hr hv
      exact hne (by rw [hr, hv, magOf_zero, signedUnits_zero, signedUnits_zero])
    rcases Nat.eq_zero_or_pos (roundLow n d) with hr | hr
    · have := Nat.mul_pos (Nat.pos_of_ne_zero (hnonzero hr)) hd
      rw [hr, magOf_zero]
      omega
    · have := roundLow_nearest n hd hr.ne
      simp only [magOf_zero, decide_eq_false_iff_not] at this ⊢
      omega

/-- The pattern of a rounded magnitude with a sign is the signed value rounded. -/
theorem roundedTo_resultBits (op : FloatOp) (x y : Word) (neg : Bool) (n : Nat) {d : Nat} (hd : 0 < d) :
    RoundedTo (signedUnits neg n) d (resultBits op x y (roundBinary32 neg n d)) := by
  rw [resultBits_round, RoundedTo, natAbs_signedUnits]
  split
  case isTrue hover =>
    rw [Nat.min_eq_right ((infLow_le_roundLow n hd).mpr hover)]
    have hn : n ≠ 0 := by
      rintro rfl
      have := Nat.mul_pos (show 0 < (2 ^ 25 - 1) * 2 ^ 252 by decide) hd
      omega
    simp only [signedUnits_neg_iff, hn, ne_eq, not_false_eq_true, and_true]
    exact (infPattern_eq neg).symm
  case isFalse hfin =>
    have hlt : roundLow n d < infLow := by
      rw [← infLow_le_roundLow n hd] at hfin
      omega
    rw [Nat.min_eq_left hlt.le]
    exact nearest_signed32 neg n hd hlt

theorem roundBinary32_isNegative (neg : Bool) (n d : Nat) :
    (roundBinary32 neg n d).isNegative = true ↔ neg = true ∧ roundLow n d ≠ 0 := by
  rw [roundBinary32_eq]
  split
  · simp [F32.isNegative, magOf_eq_zero]
  · have : 0 < infLow := by decide
    simp only [F32.isNegative]
    exact (and_iff_left (by omega)).symm

/-- The result is negative where its pattern is below zero. -/
theorem isNegative_iff_orderKey (op : FloatOp) (x y : Word) (neg : Bool) (n d : Nat) :
    (roundBinary32 neg n d).isNegative = true ↔ orderKey (resultBits op x y (roundBinary32 neg n d)) < 0 := by
  have hlow : min (roundLow n d) infLow < 2 ^ 31 := (Nat.min_le_right ..).trans_lt infLow_lt
  rw [roundBinary32_isNegative, resultBits_round, orderKey_eq, signed32_msb neg hlow, lowBits_signed32 neg hlow,
    signedUnits_neg_iff]
  have : 0 < infLow := by decide
  exact and_congr_right fun _ => by omega

theorem roundBinary32_eq_zero (neg : Bool) {n d : Nat} (hd : 0 < d) (h : 2 * n ≤ d) :
    roundBinary32 neg n d = .fin neg 0 := by
  rw [roundBinary32_eq, roundLow_eq_zero hd h, magOf_zero]
  rfl

/-! ### Values of patterns by their kind -/

theorem f32_of_isNanPattern {v : Word} (h : isNanPattern v = true) : f32 v = .nan :=
  f32_of_nan ((isNanPattern_iff v).mp h)

theorem f32_of_isInfPattern {v : Word} (h : isInfPattern v) : f32 v = .inf v.msb :=
  f32_of_inf ((isInfPattern_iff v).mp h)

theorem f32_of_isFinitePattern {v : Word} (h : isFinitePattern v) : f32 v = .fin v.msb (magOf (lowBits v)) :=
  f32_of_finite ((isFinitePattern_iff v).mp h)

theorem isFinitePattern_of_isZeroPattern {v : Word} (h : isZeroPattern v) : isFinitePattern v := by
  rw [isFinitePattern_iff, (isZeroPattern_iff v).mp h]
  decide

theorem f32_of_isZeroPattern {v : Word} (h : isZeroPattern v) : f32 v = .fin v.msb 0 := by
  rw [f32_of_isFinitePattern (isFinitePattern_of_isZeroPattern h), (isZeroPattern_iff v).mp h, magOf_zero]

theorem magOf_ne_zero_of_not_isZeroPattern {v : Word} (h : ¬isZeroPattern v) : magOf (lowBits v) ≠ 0 := by
  rwa [ne_eq, magOf_eq_zero, ← isZeroPattern_iff]

theorem isFinitePattern_of_not {v : Word} (hnan : isNanPattern v = false) (hinf : ¬isInfPattern v) :
    isFinitePattern v := by
  rw [isInfPattern_iff] at hinf
  rw [← Bool.not_eq_true, isNanPattern_iff] at hnan
  rw [isFinitePattern_iff]
  omega

theorem infPattern_msb {v : Word} (h : isInfPattern v) : infPattern v.msb = v := by
  rw [infPattern_eq, ← (isInfPattern_iff v).mp h, signed32_msb_lowBits]

theorem isNanPattern_nanPattern (v : Word) : isNanPattern (nanPattern v) = true := by
  rw [nanPattern]
  split
  · assumption
  · decide

/-! ### The operations on finite patterns (41_alu_float R153 to R156) -/

/-- The sign of a sum `t` of values with signs `p` and `q`: an exact zero is `-0` only for two of sign `-`. -/
def sumSign (p q : Bool) (t : Int) : Bool := if t = 0 then p && q else decide (t < 0)

theorem signedUnits_sumSign (p q : Bool) (t : Int) : signedUnits (sumSign p q t) t.natAbs = t := by
  rw [sumSign]
  split
  · subst t
    exact signedUnits_zero _
  · simp only [signedUnits, decide_eq_true_eq]
    split <;> omega

theorem f32Add_fin (p q : Bool) (m n : Nat) :
    f32Add (.fin p m) (.fin q n) =
      roundBinary32 (sumSign p q (signedUnits p m + signedUnits q n)) (signedUnits p m + signedUnits q n).natAbs 1 := by
  simp only [f32Add, sumSign]
  split
  case isTrue hzero => rw [hzero, Int.natAbs_zero, roundBinary32_eq_zero _ one_pos (Nat.zero_le _)]
  case isFalse => rfl

section
variable {x y : Word} (hx : isFinitePattern x) (hy : isFinitePattern y)
include hx hy

theorem f32Add_finite :
    f32Add (f32 x) (f32 y) =
      roundBinary32 (sumSign x.msb y.msb (unitsOf x + unitsOf y)) (unitsOf x + unitsOf y).natAbs 1 := by
  rw [f32_of_isFinitePattern hx, f32_of_isFinitePattern hy, f32Add_fin, unitsOf_eq, unitsOf_eq]

theorem f32Sub_finite :
    f32Sub (f32 x) (f32 y) =
      roundBinary32 (sumSign x.msb (!y.msb) (unitsOf x - unitsOf y)) (unitsOf x - unitsOf y).natAbs 1 := by
  rw [f32_of_isFinitePattern hx, f32_of_isFinitePattern hy, f32Sub, f32Neg, f32Add_fin, signedUnits_not, ← unitsOf_eq,
    ← unitsOf_eq, ← Int.sub_eq_add_neg]

theorem f32Mul_finite :
    f32Mul (f32 x) (f32 y) = roundBinary32 (x.msb ^^ y.msb) (unitsOf x * unitsOf y).natAbs (2 ^ 149) := by
  rw [f32_of_isFinitePattern hx, f32_of_isFinitePattern hy, f32Mul, unitsOf_eq, unitsOf_eq, signedUnits_mul,
    natAbs_signedUnits]

theorem f32Div_finite (hne : unitsOf y ≠ 0) :
    f32Div (f32 x) (f32 y) =
      roundBinary32 (x.msb ^^ y.msb) ((unitsOf x).natAbs * 2 ^ 149) (unitsOf y).natAbs := by
  rw [unitsOf_eq, ne_eq, signedUnits_eq_zero] at hne
  rw [f32_of_isFinitePattern hx, f32_of_isFinitePattern hy, f32Div, if_neg hne, unitsOf_eq, unitsOf_eq,
    natAbs_signedUnits, natAbs_signedUnits]

end

theorem signedUnits_product (x y : Word) :
    signedUnits (x.msb ^^ y.msb) (unitsOf x * unitsOf y).natAbs = unitsOf x * unitsOf y := by
  rw [unitsOf_eq, unitsOf_eq, signedUnits_mul, natAbs_signedUnits]

theorem signedUnits_quotient (x : Word) {y : Word} (hne : unitsOf y ≠ 0) :
    signedUnits (x.msb ^^ y.msb) ((unitsOf x).natAbs * 2 ^ 149) = unitsOf x * 2 ^ 149 * (unitsOf y).sign := by
  rw [unitsOf_eq y, ne_eq, signedUnits_eq_zero] at hne
  rw [unitsOf_eq, unitsOf_eq, natAbs_signedUnits, sign_signedUnits _ hne, Int.mul_right_comm, signedUnits_mul,
    show (2 ^ 149 : Int) = signedUnits false (2 ^ 149) from rfl, signedUnits_mul, Bool.xor_false, Nat.mul_one]

/-! ### What the float instructions write (41_alu_float R151) -/

/-- The instruction of an operation that stores a result. -/
def FloatOp.instr : FloatOp → Reg → Reg → Instr
  | .fadd => .fadd
  | .fsub => .fsub
  | .fmul => .fmul
  | .fdiv => .fdiv

/-- Its binary32 operation. -/
def FloatOp.apply : FloatOp → F32 → F32 → F32
  | .fadd => f32Add
  | .fsub => f32Sub
  | .fmul => f32Mul
  | .fdiv => f32Div

theorem exec_floatOp (op : FloatOp) (d r : Reg) (s : State) :
    exec (op.instr d r) s = .next (s.floatWrite op op.apply d r) := by
  cases op <;> rfl

theorem exec_fcmp (d r : Reg) (s : State) : exec (.fcmp d r) s = .next (s.floatFlags f32Sub d r) := rfl

theorem State.floatFlags_flags (s : State) (f : F32 → F32 → F32) (d r : Reg) :
    (s.floatFlags f d r).flags =
      ⟨false, false, false, (f (f32 (s.reg d)) (f32 (s.reg r))).isNegative, s.flags.i⟩ := rfl

theorem resultBits_inf (op : FloatOp) (x y : Word) (neg : Bool) : resultBits op x y (.inf neg) = infPattern neg := by
  rw [infPattern_eq, resultBits, infLow]

theorem resultBits_zero (op : FloatOp) (x y : Word) (neg : Bool) :
    resultBits op x y (.fin neg 0) = zeroPattern neg := by
  rw [zeroPattern_eq, ← finiteBits_magOf, magOf_zero, resultBits]

theorem FloatOp.apply_nan_left (op : FloatOp) (b : F32) : op.apply .nan b = .nan := by
  cases op <;> rfl

theorem FloatOp.apply_nan_right (op : FloatOp) (a : F32) : op.apply a .nan = .nan := by
  cases op <;> cases a <;> rfl

section
variable {op : FloatOp} {s : State} {d r : Reg}

theorem FloatOp.effect_of_result {z : F32} (hz : op.apply (f32 (s.reg d)) (f32 (s.reg r)) = z) :
    ∃ t, exec (op.instr d r) s = .next t ∧
      FloatEffect s t d (resultBits op (s.reg d) (s.reg r) z) z.isNegative := by
  subst hz
  exact ⟨_, exec_floatOp op d r s, s.floatWrite_effect op op.apply d r⟩

theorem FloatOp.effect_of_nan (hz : op.apply (f32 (s.reg d)) (f32 (s.reg r)) = .nan) :
    ∃ t v, exec (op.instr d r) s = .next t ∧ isNanPattern v = true ∧ FloatEffect s t d v false := by
  obtain ⟨t, hexec, heffect⟩ := effect_of_result hz
  exact ⟨t, _, hexec, isNanPattern_nanPattern _, heffect⟩

theorem FloatOp.effect_of_inf {neg : Bool} (hz : op.apply (f32 (s.reg d)) (f32 (s.reg r)) = .inf neg) :
    ∃ t, exec (op.instr d r) s = .next t ∧ FloatEffect s t d (infPattern neg) neg := by
  rw [← resultBits_inf op (s.reg d) (s.reg r)]
  exact effect_of_result hz

theorem FloatOp.effect_of_isInfPattern {v : Word} (hv : isInfPattern v)
    (hz : op.apply (f32 (s.reg d)) (f32 (s.reg r)) = .inf v.msb) :
    ∃ t, exec (op.instr d r) s = .next t ∧ FloatEffect s t d v v.msb := by
  have heffect := effect_of_inf hz
  rwa [infPattern_msb hv] at heffect

theorem FloatOp.effect_of_zero {neg : Bool} (hz : op.apply (f32 (s.reg d)) (f32 (s.reg r)) = .fin neg 0) :
    ∃ t, exec (op.instr d r) s = .next t ∧ FloatEffect s t d (zeroPattern neg) false := by
  rw [← resultBits_zero op (s.reg d) (s.reg r), show false = (F32.fin neg 0).isNegative by cases neg <;> rfl]
  exact effect_of_result hz

/-- A rounded result of up to half the smallest magnitude is the zero of its sign. -/
theorem FloatOp.effect_of_underflow {op : FloatOp} {neg : Bool} {n k : Nat} (hk : 0 < k) (h : 2 * n ≤ k)
    (hz : op.apply (f32 (s.reg d)) (f32 (s.reg r)) = roundBinary32 neg n k) :
    ∃ t, exec (op.instr d r) s = .next t ∧ FloatEffect s t d (zeroPattern neg) false :=
  effect_of_zero (hz.trans (roundBinary32_eq_zero neg hk h))

theorem FloatOp.effect_of_round {neg : Bool} {n k : Nat} {t : Int} (hd : d ≠ .zero) (hk : 0 < k)
    (ht : signedUnits neg n = t) (hz : op.apply (f32 (s.reg d)) (f32 (s.reg r)) = roundBinary32 neg n k) :
    ∃ u, exec (op.instr d r) s = .next u ∧ RoundedTo t k (u.reg d) ∧ (u.flags.n = true ↔ orderKey (u.reg d) < 0) := by
  obtain ⟨u, hexec, ⟨-, hdest⟩, hflags, -⟩ := effect_of_result hz
  refine ⟨u, hexec, ?_⟩
  rw [hdest, if_neg hd, hflags, ← ht]
  exact ⟨roundedTo_resultBits _ _ _ neg n hk, isNegative_iff_orderKey ..⟩

end

/-- Settles O30, from what a float instruction writes. -/
theorem floatInstructionsComplete : Obligations.FloatInstructionsComplete := by
  rintro s d r _ _ _ _ rfl rfl rfl rfl
  exact ⟨FloatOp.effect_of_result (op := .fadd) rfl, FloatOp.effect_of_result (op := .fsub) rfl,
    FloatOp.effect_of_result (op := .fmul) rfl, FloatOp.effect_of_result (op := .fdiv) rfl,
    _, exec_fcmp d r s, s.reg_withFlags _, s.floatFlags_flags .., fun _ => rfl, by simp [SameRest, State.floatFlags]⟩

/-- Settles O33: each operation rounds the magnitude of its exact result and gives it the sign of that result. -/
theorem floatResultsAreRounded : Obligations.FloatResultsAreRounded := by
  intro s d r hd hx hy
  refine ⟨?_, ?_, ?_, fun hne => ?_⟩
  · exact FloatOp.effect_of_round (op := .fadd) hd one_pos (signedUnits_sumSign ..) (f32Add_finite hx hy)
  · exact FloatOp.effect_of_round (op := .fsub) hd one_pos (signedUnits_sumSign ..) (f32Sub_finite hx hy)
  · exact FloatOp.effect_of_round (op := .fmul) hd (Nat.two_pow_pos _) (signedUnits_product ..) (f32Mul_finite hx hy)
  · exact FloatOp.effect_of_round (op := .fdiv) hd (Int.natAbs_pos.mpr hne) (signedUnits_quotient _ hne)
      (f32Div_finite hx hy hne)

/-- Settles O34: each clause is one equation of the operation on the values of the patterns. -/
theorem invalidFloatOperationsGiveNan : Obligations.InvalidFloatOperationsGiveNan := by
  rintro s d r _ _ rfl rfl
  refine ⟨fun hnan i hi => ?_, fun hx hy hsign => ?_, fun hx hy hsign => ?_, fun h => ?_, fun hx hy => ?_,
    fun hnan hinf hzero hy => ?_⟩
  · obtain ⟨op, rfl⟩ : ∃ op : FloatOp, i = op.instr d r := by
      rcases hi with h | h | h | h
      exacts [⟨.fadd, h⟩, ⟨.fsub, h⟩, ⟨.fmul, h⟩, ⟨.fdiv, h⟩]
    refine FloatOp.effect_of_nan ?_
    rcases hnan with h | h <;> rw [f32_of_isNanPattern h]
    · exact op.apply_nan_left _
    · exact op.apply_nan_right _
  · refine FloatOp.effect_of_nan (op := .fadd) ?_
    rw [f32_of_isInfPattern hx, f32_of_isInfPattern hy]
    exact if_neg hsign
  · refine FloatOp.effect_of_nan (op := .fsub) ?_
    rw [f32_of_isInfPattern hx, f32_of_isInfPattern hy, hsign]
    exact if_neg (by simp)
  · refine FloatOp.effect_of_nan (op := .fmul) ?_
    rcases h with ⟨hx, hy⟩ | ⟨hx, hy⟩
    · rw [f32_of_isZeroPattern hx, f32_of_isInfPattern hy]
      rfl
    · rw [f32_of_isInfPattern hx, f32_of_isZeroPattern hy]
      rfl
  · refine FloatOp.effect_of_nan (op := .fdiv) ?_
    rw [f32_of_isZeroPattern hx, f32_of_isZeroPattern hy]
    rfl
  · refine FloatOp.effect_of_inf (op := .fdiv) ?_
    rw [f32_of_isFinitePattern (isFinitePattern_of_not hnan hinf), f32_of_isZeroPattern hy, FloatOp.apply, f32Div,
      if_pos rfl, if_neg (magOf_ne_zero_of_not_isZeroPattern hzero)]

/-! ### Infinities and zeros (log 15) -/

section
variable {s : State} {d r : Reg}

theorem floatEffect_inf_finite (hx : isInfPattern (s.reg d)) (hy : isFinitePattern (s.reg r)) :
    (∃ t, exec (.fadd d r) s = .next t ∧ FloatEffect s t d (s.reg d) (s.reg d).msb) ∧
      (∃ t, exec (.fsub d r) s = .next t ∧ FloatEffect s t d (s.reg d) (s.reg d).msb) ∧
      ∃ t, exec (.fdiv d r) s = .next t ∧
        FloatEffect s t d (infPattern ((s.reg d).msb ^^ (s.reg r).msb)) ((s.reg d).msb ^^ (s.reg r).msb) := by
  have hvx := f32_of_isInfPattern hx
  have hvy := f32_of_isFinitePattern hy
  exact ⟨FloatOp.effect_of_isInfPattern (op := .fadd) hx (by rw [hvx, hvy]; rfl),
    FloatOp.effect_of_isInfPattern (op := .fsub) hx (by rw [hvx, hvy]; rfl),
    FloatOp.effect_of_inf (op := .fdiv) (by rw [hvx, hvy]; rfl)⟩

theorem floatEffect_finite_inf (hx : isFinitePattern (s.reg d)) (hy : isInfPattern (s.reg r)) :
    (∃ t, exec (.fadd d r) s = .next t ∧ FloatEffect s t d (s.reg r) (s.reg r).msb) ∧
      (∃ t, exec (.fsub d r) s = .next t ∧ FloatEffect s t d (infPattern (!(s.reg r).msb)) (!(s.reg r).msb)) ∧
      ∃ t, exec (.fdiv d r) s = .next t ∧ FloatEffect s t d (zeroPattern ((s.reg d).msb ^^ (s.reg r).msb)) false := by
  have hvx := f32_of_isFinitePattern hx
  have hvy := f32_of_isInfPattern hy
  exact ⟨FloatOp.effect_of_isInfPattern (op := .fadd) hy (by rw [hvx, hvy]; rfl),
    FloatOp.effect_of_inf (op := .fsub) (by rw [hvx, hvy]; rfl),
    FloatOp.effect_of_zero (op := .fdiv) (by rw [hvx, hvy]; rfl)⟩

theorem floatEffect_inf_inf (hx : isInfPattern (s.reg d)) (hy : isInfPattern (s.reg r)) :
    ((s.reg d).msb = (s.reg r).msb →
        ∃ t, exec (.fadd d r) s = .next t ∧ FloatEffect s t d (s.reg d) (s.reg d).msb) ∧
      ((s.reg d).msb ≠ (s.reg r).msb →
        ∃ t, exec (.fsub d r) s = .next t ∧ FloatEffect s t d (s.reg d) (s.reg d).msb) ∧
      ∃ t v, exec (.fdiv d r) s = .next t ∧ isNanPattern v = true ∧ FloatEffect s t d v false := by
  have hvx := f32_of_isInfPattern hx
  have hvy := f32_of_isInfPattern hy
  refine ⟨fun hsign => ?_, fun hsign => ?_, FloatOp.effect_of_nan (op := .fdiv) (by rw [hvx, hvy]; rfl)⟩
  · exact FloatOp.effect_of_isInfPattern (op := .fadd) hx (by rw [hvx, hvy]; exact if_pos hsign)
  · exact FloatOp.effect_of_isInfPattern (op := .fsub) hx (by rw [hvx, hvy]; exact if_pos (Bool.eq_not.mpr hsign))

theorem floatEffect_inf_product
    (h : isInfPattern (s.reg d) ∧ isFinitePattern (s.reg r) ∧ ¬isZeroPattern (s.reg r) ∨
      isFinitePattern (s.reg d) ∧ ¬isZeroPattern (s.reg d) ∧ isInfPattern (s.reg r) ∨
      isInfPattern (s.reg d) ∧ isInfPattern (s.reg r)) :
    ∃ t, exec (.fmul d r) s = .next t ∧
      FloatEffect s t d (infPattern ((s.reg d).msb ^^ (s.reg r).msb)) ((s.reg d).msb ^^ (s.reg r).msb) := by
  refine FloatOp.effect_of_inf (op := .fmul) ?_
  rcases h with ⟨hx, hy, hne⟩ | ⟨hx, hne, hy⟩ | ⟨hx, hy⟩
  · rw [f32_of_isInfPattern hx, f32_of_isFinitePattern hy]
    exact if_neg (magOf_ne_zero_of_not_isZeroPattern hne)
  · rw [f32_of_isFinitePattern hx, f32_of_isInfPattern hy]
    exact if_neg (magOf_ne_zero_of_not_isZeroPattern hne)
  · rw [f32_of_isInfPattern hx, f32_of_isInfPattern hy]
    rfl

end

/-- Settles O35: the infinities by the operations' equations, the zeros by rounding up to half a unit. -/
theorem infinitiesAndZeroSigns : Obligations.InfinitiesAndZeroSigns := by
  rintro s d r _ _ rfl rfl
  refine ⟨floatEffect_inf_finite, floatEffect_finite_inf, floatEffect_inf_inf, floatEffect_inf_product, fun hx hy =>
    ⟨fun hzero => ?_, fun hzero => ?_, fun hsmall => ?_, fun hne hsmall => ?_⟩⟩
  · have hadd := f32Add_finite hx hy
    rw [hzero, sumSign, if_pos rfl] at hadd
    exact FloatOp.effect_of_underflow (op := .fadd) one_pos (Nat.zero_le _) hadd
  · have hsub := f32Sub_finite hx hy
    rw [hzero, sumSign, if_pos rfl] at hsub
    exact FloatOp.effect_of_underflow (op := .fsub) one_pos (Nat.zero_le _) hsub
  · exact FloatOp.effect_of_underflow (op := .fmul) (Nat.two_pow_pos _) hsmall (f32Mul_finite hx hy)
  · exact FloatOp.effect_of_underflow (op := .fdiv) (Int.natAbs_pos.mpr hne) (by rwa [← Nat.mul_assoc])
      (f32Div_finite hx hy hne)

/-! ### The order of the values (41_alu_float R157) -/

/-- Rounding a whole number of units keeps its sign. -/
theorem roundBinary32_sumSign_isNegative (p q : Bool) (t : Int) :
    (roundBinary32 (sumSign p q t) t.natAbs 1).isNegative = true ↔ t < 0 := by
  rw [roundBinary32_isNegative, ne_eq, roundLow_one_eq_zero, ← ne_eq, ← signedUnits_neg_iff, signedUnits_sumSign]

/-- A finite value lies strictly between the infinities. -/
theorem natAbs_unitsOf_lt {v : Word} (h : lowBits v < infLow) : (unitsOf v).natAbs < magOf infLow := by
  rw [unitsOf_eq, natAbs_signedUnits]
  exact magOf_strictMono h

theorem unitsOf_inf {v : Word} (h : lowBits v = infLow) : unitsOf v = signedUnits v.msb (magOf infLow) := by
  rw [unitsOf_eq, h]

/-- The difference of two infinities is negative for `-inf - +inf` alone. -/
theorem f32Sub_inf_isNegative_iff (p q : Bool) {m : Nat} (hm : 0 < m) :
    (f32Sub (.inf p) (.inf q)).isNegative = true ↔ signedUnits p m < signedUnits q m := by
  rw [f32Sub, f32Neg, f32Add]
  by_cases hsign : p = !q
  · rw [if_pos hsign, hsign, signedUnits_not]
    cases q
    · simp only [F32.isNegative, signedUnits, Bool.not_false, Bool.false_eq_true, if_false, true_iff]
      omega
    · simp only [F32.isNegative, signedUnits, Bool.not_true, Bool.false_eq_true, if_true, false_iff]
      omega
  · obtain rfl : p = q := by simpa using hsign
    simp [F32.isNegative]

/-- The difference that `FCMP` forms is negative exactly where the first value is the smaller one. -/
theorem f32Sub_isNegative_iff {x y : Word} (hx : isNanPattern x = false) (hy : isNanPattern y = false) :
    (f32Sub (f32 x) (f32 y)).isNegative = true ↔ unitsOf x < unitsOf y := by
  rw [← Bool.not_eq_true, isNanPattern_iff] at hx hy
  rcases f32_cases x with ⟨h, -⟩ | ⟨hlx, hvx⟩ | ⟨hlx, hvx⟩
  · exact absurd h hx
  all_goals rcases f32_cases y with ⟨h, -⟩ | ⟨hly, hvy⟩ | ⟨hly, hvy⟩
  · exact absurd h hy
  · rw [hvx, hvy, unitsOf_inf hlx, unitsOf_inf hly]
    exact f32Sub_inf_isNegative_iff _ _ (magOf_strictMono (by decide : 0 < infLow))
  · rw [hvx, hvy, unitsOf_inf hlx, signedUnits_lt_of_natAbs_lt _ (natAbs_unitsOf_lt hly)]
    rfl
  · exact absurd h hy
  · rw [hvx, hvy, unitsOf_inf hly, lt_signedUnits_of_natAbs_lt _ (natAbs_unitsOf_lt hlx)]
    rfl
  · rw [f32Sub_finite ((isFinitePattern_iff x).mpr hlx) ((isFinitePattern_iff y).mpr hly),
      roundBinary32_sumSign_isNegative, sub_neg]

/-- Settles O36: the sign of the difference orders the values, and the values are ordered as their patterns. -/
theorem fcmpOrdersTheValues : Obligations.FcmpOrdersTheValues := by
  refine fun s d r => ⟨fun hnan => ⟨_, exec_fcmp d r s, ?_⟩, fun hx hy => ⟨_, exec_fcmp d r s, ?_⟩⟩
  · have hsub : f32Sub (f32 (s.reg d)) (f32 (s.reg r)) = .nan := by
      rcases hnan with h | h <;> rw [f32_of_isNanPattern h]
      · exact FloatOp.fsub.apply_nan_left _
      · exact FloatOp.fsub.apply_nan_right _
    rw [State.floatFlags_flags, hsub]
    rfl
  · rw [State.floatFlags_flags, ← unitsOf_lt_iff]
    exact f32Sub_isNegative_iff hx hy

end Sys2Proof.Machine

/-! The moves (42_moves): the register moves, the word that a load forms, the bytes that a store writes, and the eighteen
loads and the eighteen stores as one template each. -/

namespace Sys2Proof.Machine

/-! ### The register moves (42_moves R165, R166) -/

/-- A register write reaches its register and nothing else. -/
theorem State.writeReg_effect (s : State) (d : Reg) (v : Word) :
    Wrote s (s.writeReg d v) d v ∧ (s.writeReg d v).flags = s.flags ∧ SameMem s (s.writeReg d v) ∧
      SameRest s (s.writeReg d v) :=
  ⟨s.wrote_withFlags_writeReg s.flags d v, s.writeReg_flags d v, State.byteAt_congr (s.writeReg_mem d v),
    by simp [SameRest]⟩

/-- Settles O37: each of the two moves is one register write. -/
theorem movResult : Obligations.MovResult := fun s d r imm =>
  ⟨⟨_, rfl, s.writeReg_effect d (s.reg r)⟩, _, rfl, s.writeReg_effect d imm⟩

/-! ### The word that a load forms (42_moves R204) -/

theorem zext8_eq_le32 (b : Byte) : zext8 b = le32 b 0#8 0#8 0#8 := by
  rw [zext8, le32, BitVec.setWidth_eq_append (by decide)]
  rfl

theorem zext16_le16_eq_le32 (b0 b1 : Byte) : zext16 (le16 b0 b1) = le32 b0 b1 0#8 0#8 := by
  rw [zext16, le16, le32, BitVec.setWidth_eq_append (by decide), BitVec.append_assoc]
  rfl

/-- Byte `k` of what a load of `n` bytes at `a` forms: the byte of memory there, or 0 past the `n` bytes. -/
def State.loadedByte (s : State) (a : Word) (n k : Nat) : Byte :=
  if k < n then s.byteAt (a + BitVec.ofNat 32 k) else 0#8

/-- The word that a load of `n` bytes at `a` forms. -/
def State.loadedWord (s : State) (a : Word) (n : Nat) : Word :=
  le32 (s.loadedByte a n 0) (s.loadedByte a n 1) (s.loadedByte a n 2) (s.loadedByte a n 3)

theorem State.loadedFrom_loadedWord (s : State) (a : Word) (n : Nat) : LoadedFrom s a n (s.loadedWord a n) := by
  obtain ⟨h0, h1, h2, h3⟩ :=
    extract_le32 (s.loadedByte a n 0) (s.loadedByte a n 1) (s.loadedByte a n 2) (s.loadedByte a n 3)
  intro k hk
  match k, hk with
  | 0, _ => exact h0
  | 1, _ => exact h1
  | 2, _ => exact h2
  | 3, _ => exact h3

theorem State.loadedWord_one (s : State) (a : Word) : s.loadedWord a 1 = zext8 (s.byteAt a) := by
  simp [State.loadedWord, State.loadedByte, zext8_eq_le32]

theorem State.loadedWord_two (s : State) (a : Word) :
    s.loadedWord a 2 = zext16 (le16 (s.byteAt a) (s.byteAt (a + 1#32))) := by
  simp [State.loadedWord, State.loadedByte, zext16_le16_eq_le32]

theorem State.loadedWord_four (s : State) (a : Word) :
    s.loadedWord a 4 =
      le32 (s.byteAt a) (s.byteAt (a + 1#32)) (s.byteAt (a + 2#32)) (s.byteAt (a + 3#32)) := by
  simp [State.loadedWord, State.loadedByte]

/-! ### The loads (42_moves R203, R204) -/

/-- The load template of a width. -/
def State.load (s : State) : Width → Reg → Word → Except State State
  | .w8 => s.load8
  | .w16 => s.load16
  | .w32 => s.load32

/-- Width, scale and offset of each of the eighteen loads are those of its arm of `exec`. -/
theorem exec_loadOf (w : Width) (m : Scale) (disp : Option Word) (data base : Reg) (index : IdxReg) (s : State) :
    exec (loadOf w m disp data base index) s = settle (s.load w data (s.ea base index m (disp.getD 0#32))) := by
  cases w <;> cases m <;> cases disp <;> rfl

theorem State.load_eq (s : State) (w : Width) (data : Reg) (a : Word) :
    s.load w data a = if s.portOk a w.bytes then .ok (s.writeReg data (s.loadedWord a w.bytes))
      else .error (s.raise .unmappedAddress a) := by
  cases w with
  | w8 => rw [State.load, State.load8_eq, Width.bytes, State.portOk_one, State.loadedWord_one]
  | w16 => rw [State.load, State.load16_eq, Width.bytes, State.loadedWord_two]
  | w32 => rw [State.load, State.load32_eq, Width.bytes, State.loadedWord_four]

/-- Settles O38: every load is the template of its width at the effective address, which writes one register or raises
the fault. -/
theorem loadResult : Obligations.LoadResult := by
  intro w m disp data base index s a ha
  rw [exec_loadOf, State.ea_eq, ← ha, State.load_eq]
  refine ⟨fun hport => ?_, fun hport => ?_⟩
  · rw [if_pos hport]
    exact ⟨_, _, rfl, s.loadedFrom_loadedWord a w.bytes, s.writeReg_effect data _⟩
  · rw [if_neg (by simp [hport])]
    exact ⟨_, rfl, s.raised_raise _ a⟩

/-! ### The bytes that a store writes (42_moves R205) -/

/-- The low `n` bytes of a word, little-endian. -/
def lowBytes (v : Word) (n : Nat) : List Byte := (List.range n).map fun k => v.extractLsb' (8 * k) 8

@[simp] theorem length_lowBytes (v : Word) (n : Nat) : (lowBytes v n).length = n := by simp [lowBytes]

theorem lowBytes_four (v : Word) : lowBytes v 4 = bytes32 v := rfl

theorem lowBytes_two (v : Word) : lowBytes v 2 = bytes16 (v.extractLsb' 0 16) := by
  simp [lowBytes, List.range_succ, bytes16, BitVec.extractLsb'_extractLsb'_of_le]

theorem lowBytes_one (v : Word) : lowBytes v 1 = [v.extractLsb' 0 8] := rfl

/-- Low bytes of a word written to a memory in canonical form stand there, and every other byte is as before. -/
theorem stored_lowBytes {s t : State} {a v : Word} {n : Nat} (hwf : s.mem.wf = true) (hn : n ≤ 2 ^ 32)
    (hmem : t.mem = s.mem.writeBytes a (lowBytes v n)) : Stored s t a n v := by
  refine ⟨fun k hk => ?_, fun b hb => ?_⟩
  · have hread := Memory.read_writeBytes_same a (lowBytes v n) hwf (by simpa using hn) (k := k) (by simpa using hk)
    rw [State.byteAt, hmem, hread]
    simp [lowBytes]
  · rw [State.byteAt, hmem]
    exact Memory.read_writeBytes_other (by simpa using hb)

/-! ### The stores (42_moves R203, R205) -/

/-- The store template of a width. -/
def State.store (s : State) : Width → Reg → Word → Except State State
  | .w8 => s.store8
  | .w16 => s.store16
  | .w32 => s.store32

/-- Width, scale and offset of each of the eighteen stores are those of its arm of `exec`. -/
theorem exec_storeOf (w : Width) (m : Scale) (disp : Option Word) (data base : Reg) (index : IdxReg) (s : State) :
    exec (storeOf w m disp data base index) s = settle (s.store w data (s.ea base index m (disp.getD 0#32))) := by
  cases w <;> cases m <;> cases disp <;> rfl

theorem State.store_eq (s : State) (w : Width) (data : Reg) (a : Word) :
    s.store w data a = if s.portOk a w.bytes then .ok (s.withMem (s.mem.writeBytes a (lowBytes (s.reg data) w.bytes)))
      else .error (s.raise .unmappedAddress a) := by
  cases w with
  | w8 => rw [State.store, State.store8_eq, Width.bytes, lowBytes_one]
  | w16 => rw [State.store, State.store16_eq, Width.bytes, lowBytes_two]
  | w32 => rw [State.store, State.store32_eq, Width.bytes, lowBytes_four]

theorem Width.bytes_le_four (w : Width) : w.bytes ≤ 4 := by cases w <;> decide

/-- Settles O39: every store is the template of its width at the effective address, which writes the low bytes of its
register or raises the fault. -/
theorem storeResult : Obligations.StoreResult := by
  intro w m disp data base index s a hwf ha
  rw [exec_storeOf, State.ea_eq, ← ha, State.store_eq]
  refine ⟨fun hport => ?_, fun hport => ?_⟩
  · rw [if_pos hport]
    have hlen : w.bytes ≤ 2 ^ 32 := w.bytes_le_four.trans (by decide)
    exact ⟨_, rfl, stored_lowBytes hwf hlen rfl, s.reg_withMem _, rfl, by simp [SameRest]⟩
  · rw [if_neg (by simp [hport])]
    exact ⟨_, rfl, s.raised_raise _ a⟩

end Sys2Proof.Machine

/-! Control transfer (43_control): the test that each conditional jump makes, the stack pointer and the word that a push
and a pop move, and what each transfer leaves. -/

namespace Sys2Proof.Machine

/-! ### The unconditional jumps (43_control R218 to R220) -/

/-- Settles O40: each jump writes its target to `pc`, and a displacement target is a sum of words. -/
theorem unconditionalJumpResult : Obligations.UnconditionalJumpResult := by
  refine fun s q d16 d32 => ⟨rfl, ?_, ?_⟩
  · exact congrArg (fun pc => Host.Outcome.next (s.withPc pc)) (s.target_eq (sext16 d16))
  · exact congrArg (fun pc => Host.Outcome.next (s.withPc pc)) (s.target_eq d32)

/-! ### The conditional jumps (43_control R216, R217) -/

/-- The test of the flags that the model's jump with a condition makes. -/
def Cond.test (f : Flags) : Cond → Bool
  | .z => f.isZ
  | .nz => f.isNZ
  | .g => f.isG
  | .ge => f.isGE
  | .l => f.isL
  | .le => f.isLE
  | .a => f.isA
  | .ae => f.isAE
  | .b => f.isB
  | .be => f.isBE
  | .o => f.isO
  | .no => f.isNO

/-- The test is the column "Taken when" of the table of R217. -/
theorem Cond.test_iff (c : Cond) (f : Flags) : c.test f = true ↔ c.taken f := by
  cases c with
  | z | l | b | o => rfl
  | nz => simp [Cond.test, Cond.taken, Flags.isNZ]
  | ge => simp [Cond.test, Cond.taken, Flags.isGE]
  | ae => simp [Cond.test, Cond.taken, Flags.isAE]
  | no => simp [Cond.test, Cond.taken, Flags.isNO]
  | g => simp [Cond.test, Cond.taken, Flags.isG]
  | a => simp [Cond.test, Cond.taken, Flags.isA]
  | le => simp [Cond.test, Cond.taken, Flags.isLE]
  | be => simp [Cond.test, Cond.taken, Flags.isBE]

/-- The six pairs of R217: a condition of one flag against its other value, a conjunction against the disjunction of the
other values. -/
theorem Cond.complement_taken_iff (c : Cond) (f : Flags) : c.complement.taken f ↔ ¬c.taken f := by
  cases c with
  | z | nz | ge | l | ae | b | o | no => simp [Cond.complement, Cond.taken]
  | g | a | le | be => simp [Cond.complement, Cond.taken, imp_iff_not_or]

/-- Condition and displacement of each of the twelve short jumps are those of its arm of `exec`. -/
theorem exec_jump16Of (c : Cond) (disp : BitVec 16) (s : State) :
    exec (jump16Of c disp) s = .next (s.jumpIf (c.test s.flags) (sext16 disp)) := by
  cases c <;> rfl

/-- Condition and displacement of each of the twelve long jumps are those of its arm of `exec`. -/
theorem exec_jump32Of (c : Cond) (disp : Word) (s : State) :
    exec (jump32Of c disp) s = .next (s.jumpIf (c.test s.flags) disp) := by
  cases c <;> rfl

theorem State.jumpIf_of_taken {s : State} {c : Cond} (h : c.taken s.flags) (disp : Word) :
    s.jumpIf (c.test s.flags) disp = s.withPc (s.pc + disp) := by
  rw [State.jumpIf_eq, if_pos ((c.test_iff s.flags).mpr h)]

theorem State.jumpIf_of_not_taken {s : State} {c : Cond} (h : ¬c.taken s.flags) (disp : Word) :
    s.jumpIf (c.test s.flags) disp = s := by
  rw [State.jumpIf_eq, if_neg (mt (c.test_iff s.flags).mp h)]

/-- Settles O41: every conditional jump is one template, whose test is the predicate of the table. -/
theorem conditionalJumpResult : Obligations.ConditionalJumpResult := by
  intro c s d16 d32
  rw [exec_jump16Of, exec_jump32Of]
  refine ⟨fun h => ?_, fun h => ?_, c.complement_taken_iff s.flags⟩
  · rw [State.jumpIf_of_taken h, State.jumpIf_of_taken h]
    exact ⟨rfl, rfl⟩
  · rw [State.jumpIf_of_not_taken h, State.jumpIf_of_not_taken h]
    exact ⟨rfl, rfl⟩

/-! ### The stack pointer (44_stack R260) -/

/-- The stack ascends: a push moves SP up by its width. -/
theorem State.advanceSp_eq (s : State) (w : Word) : s.advanceSp w = s.writeReg .sp (s.reg .sp + w) := by
  rw [State.advanceSp, Config.stackDir, BitVec.one_mul]

theorem State.retreatSp_eq (s : State) (w : Word) : s.retreatSp w = s.writeReg .sp (s.reg .sp - w) := by
  rw [State.retreatSp, Config.stackDir, BitVec.one_mul]

/-- A register write and then a jump: `pc` holds the target, the register its value, and nothing else changed. -/
theorem State.writeReg_withPc_effect (s : State) {d : Reg} (v target : Word) (hpc : d ≠ .pc) (hzero : d ≠ .zero) :
    ((s.writeReg d v).withPc target).reg d = v ∧
      (∀ q : Reg, q ≠ d → q ≠ .pc → ((s.writeReg d v).withPc target).reg q = s.reg q) ∧
      ((s.writeReg d v).withPc target).flags = s.flags ∧ SameMem s ((s.writeReg d v).withPc target) ∧
      SameRest s ((s.writeReg d v).withPc target) := by
  refine ⟨?_, fun q hq hqpc => ?_, by simp, State.byteAt_congr (by simp), by simp [SameRest]⟩
  · rw [State.reg_withPc, if_neg hpc, State.reg_writeReg, if_pos rfl, if_neg hzero]
  · rw [State.reg_withPc, if_neg hqpc, State.reg_writeReg_other _ _ hq]

/-! ### Call and return (43_control R245, R246, R250) -/

/-- Settles O42: both widths are one call, which pushes the address of the next instruction and jumps, or raises the
fault with SP advanced. -/
theorem callResult : Obligations.CallResult := by
  intro s d16 d32 disp i hwf hi
  have hexec : exec i s = settle (s.call disp) := by
    rcases hi with ⟨rfl, rfl⟩ | ⟨rfl, rfl⟩ <;> rfl
  rw [hexec, State.call_eq, ← State.reg_sp, State.advanceSp_eq]
  refine ⟨fun hport => ?_, fun hport => ?_⟩
  · obtain ⟨hsp, hregs, hflags, -, hrest⟩ :=
      s.writeReg_withPc_effect (d := .sp) (s.reg .sp + 4#32) (s.pc + disp) (by decide) (by decide)
    rw [if_pos hport]
    -- The bytes of the pushed word are memory's, so the registers and the rest are as `writeReg_withPc_effect` says.
    exact ⟨_, rfl, stored_lowBytes hwf (by decide) rfl, hsp, rfl, hregs, hflags, hrest⟩
  · rw [if_neg (Bool.eq_false_iff.mp hport)]
    exact ⟨_, rfl, State.raised_raise ..⟩

/-- `RET`: the popped word in `pc` and SP retreated, or the fault with nothing else changed. -/
theorem exec_ret (s : State) :
    exec .ret s = .next (if s.portOk (s.reg .sp) 4 then
        (s.writeReg .sp (s.reg .sp - 4#32)).withPc (s.loadedWord (s.reg .sp) 4)
      else s.raise .unmappedAddress (s.reg .sp)) := by
  change settle (s.pop32.map fun p => p.2.withPc p.1) = _
  rw [State.pop32_eq, State.retreatSp_eq, State.loadedWord_four, State.reg_sp]
  split <;> rfl

/-- Settles O43, from the two outcomes of `exec_ret`. -/
theorem retResult : Obligations.RetResult := by
  intro s
  rw [exec_ret]
  refine ⟨fun hport => ?_, fun hport => ?_⟩
  · rw [if_pos hport]
    exact ⟨_, rfl, s.loadedFrom_loadedWord (s.reg .sp) 4, s.writeReg_withPc_effect _ _ (by decide) (by decide)⟩
  · rw [if_neg (Bool.eq_false_iff.mp hport)]
    exact ⟨_, rfl, s.raised_raise ..⟩

end Sys2Proof.Machine

/-! The stack (44_stack): what a push and a pop leave, and what the two give one after the other. -/

namespace Sys2Proof.Machine

/-! ### The state after a push (44_stack R260) -/

/-- The state after a push of the low `n` bytes of a word. -/
def State.pushed (s : State) (v : Word) (n : Nat) : State :=
  (s.writeReg .sp (s.reg .sp + BitVec.ofNat 32 n)).withMem
    (s.mem.writeBytes (s.reg .sp + BitVec.ofNat 32 n) (lowBytes v n))

/-- A push advances SP, stores the bytes at its new value, and changes nothing else. -/
theorem State.pushed_effect {s : State} (hwf : s.mem.wf = true) (v : Word) {n : Nat} (hn : n ≤ 2 ^ 32) :
    Stored s (s.pushed v n) (s.reg .sp + BitVec.ofNat 32 n) n v ∧
      Wrote s (s.pushed v n) .sp (s.reg .sp + BitVec.ofNat 32 n) ∧ (s.pushed v n).flags = s.flags ∧
      SameRest s (s.pushed v n) := by
  obtain ⟨hwrote, hflags, -, hrest⟩ := s.writeReg_effect .sp (s.reg .sp + BitVec.ofNat 32 n)
  exact ⟨stored_lowBytes hwf hn rfl, hwrote, hflags, hrest⟩

theorem State.push32_eq_pushed (s : State) (v : Word) :
    s.push32 v = if s.portOk (s.reg .sp + 4#32) 4 then .ok (s.pushed v 4)
      else .error ((s.writeReg .sp (s.reg .sp + 4#32)).raise .unmappedAddress (s.reg .sp + 4#32)) := by
  rw [State.push32_eq, State.advanceSp_eq, ← lowBytes_four]
  rfl

theorem State.push8_eq_pushed (s : State) (v : Word) :
    s.push8 (v.extractLsb' 0 8) = if s.isMapped (s.reg .sp + 1#32) then .ok (s.pushed v 1)
      else .error ((s.writeReg .sp (s.reg .sp + 1#32)).raise .unmappedAddress (s.reg .sp + 1#32)) := by
  rw [State.push8_eq, State.portOk_one, State.advanceSp_eq, ← lowBytes_one]
  rfl

/-! ### `PUSH` and `POP` (44_stack R261, R262) -/

/-- `PUSH`: the register's old value pushed and the flags cleared, or the fault with SP advanced. -/
theorem exec_push (q : Reg) (s : State) :
    exec (.push q) s = .next (if s.portOk (s.reg .sp + 4#32) 4 then (s.pushed (s.reg q) 4).clearFlags
      else (s.writeReg .sp (s.reg .sp + 4#32)).raise .unmappedAddress (s.reg .sp + 4#32)) := by
  change settle ((s.push32 (s.reg q)).map State.clearFlags) = _
  rw [State.push32_eq_pushed]
  split <;> rfl

/-- Settles O45, from the two outcomes of `exec_push`. -/
theorem pushResult : Obligations.PushResult := by
  intro s q hwf
  rw [exec_push]
  refine ⟨fun hport => ?_, fun hport => ?_⟩
  · rw [if_pos hport]
    obtain ⟨hstored, hwrote, -, hrest⟩ := State.pushed_effect hwf (s.reg q) (n := 4) (by decide)
    -- Clearing the flags touches no register, no byte and nothing of the rest.
    exact ⟨_, rfl, hstored, hwrote, rfl, hrest⟩
  · rw [if_neg (Bool.eq_false_iff.mp hport)]
    exact ⟨_, rfl, State.raised_raise ..⟩

/-- `POP`: SP retreated, then the register written and the flags cleared, or the fault with nothing else changed. -/
theorem exec_pop (q : Reg) (s : State) :
    exec (.pop q) s = .next (if s.portOk (s.reg .sp) 4 then
        ((s.writeReg .sp (s.reg .sp - 4#32)).writeReg q (s.loadedWord (s.reg .sp) 4)).clearFlags
      else s.raise .unmappedAddress (s.reg .sp)) := by
  change settle (s.pop32.map fun p => (p.2.writeReg q p.1).clearFlags) = _
  rw [State.pop32_eq, State.retreatSp_eq, State.loadedWord_four, State.reg_sp]
  split <;> rfl

/-- Settles O46: SP is written before the register, so `POP sp` ends with the word. -/
theorem popResult : Obligations.PopResult := by
  intro s q
  rw [exec_pop]
  refine ⟨fun hport => ?_, fun hport => ?_⟩
  · rw [if_pos hport]
    obtain ⟨hwrote, -⟩ := (s.writeReg .sp (s.reg .sp - 4#32)).writeReg_effect q (s.loadedWord (s.reg .sp) 4)
    exact ⟨_, _, rfl, s.loadedFrom_loadedWord (s.reg .sp) 4, hwrote, rfl,
      State.byteAt_congr (by simp [State.clearFlags]), by simp [SameRest, State.clearFlags]⟩
  · rw [if_neg (Bool.eq_false_iff.mp hport)]
    exact ⟨_, rfl, s.raised_raise ..⟩

/-! ### `PUSHF` and `POPF` (10_state R30, 44_stack R263, R264) -/

theorem zext8_extract (b : Byte) : (zext8 b).extractLsb' 0 8 = b := by
  obtain ⟨hlow, -⟩ := extract_le32 b 0#8 0#8 0#8
  rw [zext8_eq_le32, hlow]

theorem zext8_getLsbD (b : Byte) {k : Nat} (hk : k < 8) : (zext8 b).getLsbD k = b.getLsbD k := by
  rw [zext8, BitVec.getLsbD_setWidth, decide_eq_true (by omega), Bool.true_and]

/-- Above the flags the packed byte as a word is zero. -/
theorem Flags.zext8_pack_high (f : Flags) : (zext8 f.pack).extractLsb' 5 27 = 0#27 := by
  obtain ⟨z, c, o, n, i⟩ := f
  revert z c o n i
  decide

theorem exec_pushf (s : State) :
    exec .pushf s = .next (if s.isMapped (s.reg .sp + 1#32) then s.pushed (zext8 s.flags.pack) 1
      else (s.writeReg .sp (s.reg .sp + 1#32)).raise .unmappedAddress (s.reg .sp + 1#32)) := by
  change settle (s.push8 s.flags.pack) = _
  rw [← zext8_extract s.flags.pack, State.push8_eq_pushed, zext8_extract]
  split <;> rfl

theorem exec_popf (s : State) :
    exec .popf s = .next (if s.isMapped (s.reg .sp) then
        (s.writeReg .sp (s.reg .sp - 1#32)).withFlags (Flags.unpack (s.byteAt (s.reg .sp)))
      else s.raise .unmappedAddress (s.reg .sp)) := by
  change settle (s.pop8.map fun p => p.2.withFlags (Flags.unpack p.1)) = _
  rw [State.pop8_eq, State.retreatSp_eq, State.reg_sp]
  split <;> rfl

/-- `PUSHF` on a mapped byte: the packed flags at the advanced SP, and nothing else changed. -/
theorem pushf_completes {s : State} (hwf : s.mem.wf = true) (hmapped : s.isMapped (s.reg .sp + 1#32) = true) :
    ∃ t, exec .pushf s = .next t ∧ Stored s t (s.reg .sp + 1#32) 1 (zext8 s.flags.pack) ∧
      Wrote s t .sp (s.reg .sp + 1#32) ∧ t.flags = s.flags ∧ SameRest s t := by
  rw [exec_pushf, if_pos hmapped]
  exact ⟨_, rfl, State.pushed_effect hwf _ (by decide)⟩

/-- `POPF` on a mapped byte: the flags unpacked from it, SP retreated, and nothing else changed. -/
theorem popf_completes {s : State} (hmapped : s.isMapped (s.reg .sp) = true) :
    ∃ t, exec .popf s = .next t ∧ Wrote s t .sp (s.reg .sp - 1#32) ∧
      t.flags = Flags.unpack (s.byteAt (s.reg .sp)) ∧ SameMem s t ∧ SameRest s t := by
  rw [exec_popf, if_pos hmapped]
  obtain ⟨hwrote, -, hmem, hrest⟩ := s.writeReg_effect .sp (s.reg .sp - 1#32)
  exact ⟨_, rfl, hwrote, rfl, hmem, hrest⟩

/-- Settles O47: the bits of the packed byte are the flags, since it unpacks to them. -/
theorem pushfAndPopfResult : Obligations.PushfAndPopfResult := by
  intro s hwf
  refine ⟨fun hmapped => ?_, fun hmapped => ?_, popf_completes, fun hmapped => ?_⟩
  · obtain ⟨t, hexec, hstored, hwrote, hflags, hrest⟩ := pushf_completes hwf hmapped
    have hbit {k : Nat} (hk : k < 8) := zext8_getLsbD s.flags.pack hk
    have hpack := s.flags.unpack_pack
    exact ⟨t, _, hexec, hstored, hwrote, (hbit (by decide)).trans (congrArg Flags.z hpack),
      (hbit (by decide)).trans (congrArg Flags.c hpack), (hbit (by decide)).trans (congrArg Flags.o hpack),
      (hbit (by decide)).trans (congrArg Flags.n hpack), (hbit (by decide)).trans (congrArg Flags.i hpack),
      s.flags.zext8_pack_high, hflags, hrest⟩
  · rw [exec_pushf, if_neg (Bool.eq_false_iff.mp hmapped)]
    exact ⟨_, rfl, State.raised_raise ..⟩
  · rw [exec_popf, if_neg (Bool.eq_false_iff.mp hmapped)]
    exact ⟨_, rfl, s.raised_raise ..⟩

/-! ### What a push leaves, a pop brings back (44_stack R265) -/

/-- A word is its four bytes. -/
theorem word_eq_of_bytes {v w : Word} (h : ∀ k : Nat, k < 4 → v.extractLsb' (8 * k) 8 = w.extractLsb' (8 * k) 8) :
    v = w := by
  rw [← le32_bytes32 v, ← le32_bytes32 w]
  exact congr (congr (congr (congrArg le32 (h 0 (by decide))) (h 1 (by decide))) (h 2 (by decide))) (h 3 (by decide))

/-- A load of four bytes from where a word was stored gives the word. -/
theorem LoadedFrom.eq_of_stored {s t : State} {a v w : Word} (hload : LoadedFrom t a 4 w) (hstore : Stored s t a 4 v) :
    w = v :=
  word_eq_of_bytes fun k hk => by rw [hload k hk, if_pos hk, hstore.1 k hk]

theorem SameRest.mapped {s t : State} (h : SameRest s t) : t.mapped = s.mapped := by
  obtain ⟨-, -, -, hmapped, -⟩ := h
  exact hmapped

theorem Wrote.reg_sp {s t : State} {v : Word} (h : Wrote s t .sp v) : t.reg .sp = v := by
  rw [h.2, if_neg (by decide)]

/-- Settles O44, from what the call and the return do, each alone. -/
theorem callThenRetComesBack : Obligations.CallThenRetComesBack := by
  intro s i d16 d32 pc' hi hwf hport
  obtain ⟨disp, hdisp⟩ : ∃ disp, i = .call16 d16 ∧ disp = d16.signExtend 32 ∨ i = .call32 d32 ∧ disp = d32 :=
    hi.elim (fun h => ⟨_, .inl ⟨h, rfl⟩⟩) (fun h => ⟨_, .inr ⟨h, rfl⟩⟩)
  obtain ⟨t, hcall, hstored, hsp, -, hregs, hflags, hrest⟩ := (callResult s d16 d32 disp i hwf hdisp).1 hport
  have htsp : (t.withPc pc').reg .sp = s.reg .sp + 4#32 := hsp
  have hport' : (t.withPc pc').portOk ((t.withPc pc').reg .sp) 4 = true := by
    rw [htsp, State.portOk_congr (t := t.withPc pc') hrest.mapped, hport]
  obtain ⟨u, hret, hload, husp, huregs, huflags, -⟩ := (retResult (t.withPc pc')).1 hport'
  -- A jump between the two reaches no byte, so the return reads the word that the call stored.
  have hpc : u.pc = s.pc := LoadedFrom.eq_of_stored (htsp ▸ hload) hstored
  refine ⟨t, u, hcall, hret, hpc, fun q => ?_, huflags.trans hflags⟩
  by_cases hqsp : q = .sp
  · rw [hqsp, husp, htsp, BitVec.add_sub_cancel]
  by_cases hqpc : q = .pc
  · rw [hqpc, State.reg_pc, hpc, State.reg_pc]
  · rw [huregs q hqsp hqpc, State.reg_withPc, if_neg hqpc, hregs q hqsp hqpc]

/-- `PUSH` and then `POP`: the word that is read back is the stored one, and reading it leaves it in memory. -/
theorem push_then_pop {s : State} {q p : Reg} (hwf : s.mem.wf = true)
    (hport : s.portOk (s.reg .sp + 4#32) 4 = true) (hsp : p ≠ .sp) (hzero : p ≠ .zero) :
    ∃ t u, exec (.push q) s = .next t ∧ exec (.pop p) t = .next u ∧ u.reg p = s.reg q ∧ u.reg .sp = s.reg .sp ∧
      u.flags = Flags.zero ∧ Stored s u (s.reg .sp + 4#32) 4 (s.reg q) := by
  obtain ⟨t, hpush, hstored, hadvance, -, hrest⟩ := (pushResult s q hwf).1 hport
  have htsp := hadvance.reg_sp
  have hport' : t.portOk (t.reg .sp) 4 = true := by rw [htsp, State.portOk_congr hrest.mapped, hport]
  obtain ⟨u, v, hpop, hload, ⟨huother, hup⟩, huflags, humem, -⟩ := (popResult t p).1 hport'
  have hword : v = s.reg q := LoadedFrom.eq_of_stored (htsp ▸ hload) hstored
  refine ⟨t, u, hpush, hpop, ?_, ?_, huflags, fun k hk => ?_, fun b hb => ?_⟩
  · rw [hup, if_neg hzero, hword]
  · rw [huother .sp hsp.symm, State.reg_writeReg, if_pos rfl, if_neg (by decide), htsp, BitVec.add_sub_cancel]
  · rw [humem, hstored.1 k hk]
  · rw [humem, hstored.2 b hb]

/-- SP advanced and then retreated by as much, and no other register written: every register is as before. -/
theorem Wrote.sameRegs_of_advance_retreat {s t u : State} {w : Word} (hadvance : Wrote s t .sp (s.reg .sp + w))
    (hretreat : Wrote t u .sp (t.reg .sp - w)) : SameRegs s u := by
  intro q
  by_cases hq : q = .sp
  · rw [hq, hretreat.reg_sp, hadvance.reg_sp, BitVec.add_sub_cancel]
  · rw [hretreat.1 q hq, hadvance.1 q hq]

/-- `PUSHF` and then `POPF`: the byte that is read back is the packed one. -/
theorem pushf_then_popf {s : State} (hwf : s.mem.wf = true) (hmapped : s.isMapped (s.reg .sp + 1#32) = true) :
    ∃ t u, exec .pushf s = .next t ∧ exec .popf t = .next u ∧ SameRegs s u ∧ u.flags = s.flags := by
  obtain ⟨t, hpushf, hstored, hadvance, -, hrest⟩ := pushf_completes hwf hmapped
  have hmapped' : t.isMapped (t.reg .sp) = true := by
    rw [hadvance.reg_sp, State.isMapped_congr hrest.mapped, hmapped]
  have hbyte : t.byteAt (t.reg .sp) = s.flags.pack := by
    have hfirst := hstored.1 0 (by decide)
    rwa [Nat.mul_zero, zext8_extract, BitVec.add_zero, ← hadvance.reg_sp] at hfirst
  obtain ⟨u, hpopf, hretreat, hflags, -⟩ := popf_completes hmapped'
  refine ⟨t, u, hpushf, hpopf, hadvance.sameRegs_of_advance_retreat hretreat, ?_⟩
  rw [hflags, hbyte, Flags.unpack_pack]

/-- Settles O48, one lemma for each pair. -/
theorem pushThenPopMovesTheWord : Obligations.PushThenPopMovesTheWord :=
  fun _ _ _ hwf =>
    ⟨fun hport hsp _ hzero => push_then_pop hwf hport hsp hzero, fun hmapped => pushf_then_popf hwf hmapped⟩

end Sys2Proof.Machine

/-! The system instructions (45_system): the flag that `SETF` and `CLRF` write, the hook call of `INT`, and the step that
runs `HALT`. -/

namespace Sys2Proof.Machine

/-! ### The flag that an operand byte names (30_encoding R85, R97) -/

theorem FlagName.exists_index_eq {k : Byte} (h : k.toNat ≤ 4) : ∃ name : FlagName, k = name.index := by
  have hk : k = 0#8 ∨ k = 1#8 ∨ k = 2#8 ∨ k = 3#8 ∨ k = 4#8 := by bv_omega
  rcases hk with rfl | rfl | rfl | rfl | rfl
  exacts [⟨.z, rfl⟩, ⟨.c, rfl⟩, ⟨.o, rfl⟩, ⟨.n, rfl⟩, ⟨.i, rfl⟩]

theorem FlagName.index_le (name : FlagName) : name.index.toNat ≤ 4 := by cases name <;> decide

@[simp] theorem FlagName.ofIndex_index (name : FlagName) : FlagName.ofIndex name.index = some name := by
  cases name <;> rfl

theorem FlagName.ofIndex_eq_none {k : Byte} (h : 4 < k.toNat) : FlagName.ofIndex k = none := by
  cases hname : FlagName.ofIndex k with
  | none => rfl
  | some name =>
    obtain rfl := FlagName.eq_index_of_ofIndex hname
    exact absurd name.index_le (by omega)

/-- A flag's index is its bit in the packed byte (10_state R30). -/
theorem Flags.pack_put (f : Flags) (name : FlagName) (b : Bool) :
    (f.put name b).pack =
      if b then f.pack ||| 1#8 <<< name.index.toNat else f.pack &&& ~~~(1#8 <<< name.index.toNat) := by
  obtain ⟨z, c, o, n, i⟩ := f
  cases name <;> revert z c o n i b <;> decide

/-! ### `SETF` and `CLRF` (45_system R278, R279) -/

theorem State.putFlag_of_le (s : State) (op : Byte) {k : Byte} (b : Bool) (h : k.toNat ≤ 4) :
    ∃ t, s.putFlag op k b = .ok t ∧
      (t.flags.pack = if b then s.flags.pack ||| 1#8 <<< k.toNat else s.flags.pack &&& ~~~(1#8 <<< k.toNat)) ∧
      t = { s with flags := t.flags } := by
  obtain ⟨name, rfl⟩ := FlagName.exists_index_eq h
  exact ⟨s.withFlags (s.flags.put name b), by simp [State.putFlag], s.flags.pack_put name b, rfl⟩

theorem State.putFlag_of_gt (s : State) (op : Byte) {k : Byte} (b : Bool) (h : 4 < k.toNat) :
    s.putFlag op k b = .error (s.raise .unknownOpcode (zext8 op)) := by
  simp [State.putFlag, FlagName.ofIndex_eq_none h]

theorem exec_setf (k : Byte) (s : State) : exec (.setf k) s = settle (s.putFlag 0x06#8 k true) := rfl

theorem exec_clrf (k : Byte) (s : State) : exec (.clrf k) s = settle (s.putFlag 0x07#8 k false) := rfl

/-- Settles O51: the two instructions differ in the bit they write and in the opcode byte they raise with. -/
theorem setfAndClrfResult : Obligations.SetfAndClrfResult := by
  intro s k
  rw [exec_setf, exec_clrf]
  refine ⟨fun hk => ?_, fun hk => ?_⟩
  · obtain ⟨t, hset, hsetBits⟩ := s.putFlag_of_le 0x06#8 true hk
    obtain ⟨u, hclear, hclearBits⟩ := s.putFlag_of_le 0x07#8 false hk
    rw [hset, hclear]
    exact ⟨⟨t, rfl, hsetBits⟩, u, rfl, hclearBits⟩
  · rw [s.putFlag_of_gt _ _ hk, s.putFlag_of_gt _ _ hk]
    exact ⟨⟨_, rfl, s.raised_raise ..⟩, _, rfl, s.raised_raise ..⟩

/-! ### `INT` (45_system R277, 60_exceptions R300) -/

theorem exec_int (n : Byte) (s : State) : exec (.int n) s = .next (s.callHook n) := rfl

/-- What a byte reads after a hook call: a mapped one the last value the hook wrote to it, an unmapped one as before. -/
theorem State.callHook_byteAt {s : State} (hwf : s.mem.wf = true) (n : Byte) (a : Word) :
    (s.callHook n).byteAt a =
      if s.isMapped a then (lastWrite a (Config.intHook s.hookCalls n s.hookView).writes).getD (s.byteAt a)
      else s.byteAt a :=
  s.hookWrites_read _ hwf a

/-- Settles O50: `INT` is the hook call, whose writes are read back by `State.callHook_byteAt`. -/
theorem intCallsTheHookOnce : Obligations.IntCallsTheHookOnce := by
  rintro s n _ hwf rfl
  refine ⟨s.callHook n, exec_int n s, rfl, rfl, rfl, s.callHook_hookCalls n, s.callHook_mode n, s.callHook_fault n,
    s.callHook_faultInfo n, s.callHook_mapped n, s.callHook_irq n, s.callHook_resets n, State.reg_zero _, ?_⟩
  exact State.callHook_byteAt hwf n

/-! ### `HALT` (45_system R276, 60_exceptions R298, R299) -/

theorem exec_halt (s : State) : exec .halt s = .next (s.withMode .halted) := rfl

/-- `HALT` completes, so the interrupt check follows it although the core is halted. -/
theorem endOfStep_halt (t : State) : endOfStep .halt t = t.serviceIrq :=
  if_pos ((completed_iff .halt t).mpr (.inr rfl))

theorem step_of_halt {s : State} (hrun : s.mode = .running) (hmapped : s.isMapped s.pc = true)
    (hop : s.byteAt s.pc = 0x01#8) :
    step s = .next ((s.withPc (s.pc + 1#32)).withMode .halted).serviceIrq := by
  have hdecode : decode [s.byteAt (s.pc + 0#32)] = .ok (.halt, []) := by
    rw [BitVec.add_zero, hop]
    rfl
  have hstep := stepRunsTheDecodedInstruction.1 s .halt 1 hrun ((s.portOk_one s.pc).trans hmapped) hdecode
  exact hstep.trans (congrArg Host.Outcome.next (endOfStep_halt _))

/-- Settles O49: the interrupt check by `step_of_halt`; it leaves the mode, so every later step changes nothing. -/
theorem haltResult : Obligations.HaltResult := by
  refine ⟨exec_halt, fun s hrun hmapped hop => ?_⟩
  have hstep := step_of_halt hrun hmapped hop
  refine ⟨fun hidle => ?_, fun hi n hirq => ?_, rfl, fun t k ht => ?_⟩
  · exact hstep.trans (congrArg _ (State.serviceIrq_of_not hidle))
  · exact hstep.trans (congrArg _ (State.serviceIrq_of_request hi hirq))
  · obtain rfl : ((s.withPc (s.pc + 1#32)).withMode .halted).serviceIrq = t := by simpa [hstep] using ht
    exact core_run_of_fixed (step_of_halted (State.serviceIrq_mode _)) k

end Sys2Proof.Machine

/-! The step as a whole (60_exceptions): its three ends, said once as `StepEffect`, and what they mean for the invariant,
for a halted core, for a fault and for the interrupt request. -/

namespace Sys2Proof.Machine

/-! ### The three ends of a step -/

/-- `u` is `s` with at most `pc` and SP moved, which is all that a fetch or an instruction writes before it raises
(60_exceptions R294). -/
inductive MovesSpPc (s : State) : State → Prop
  | fetched (v : Word) : MovesSpPc s (s.withPc v)
  | pushed (v w : Word) : MovesSpPc s ((s.withPc v).advanceSp w)

/-- How a step from `s` ends: nothing happens on a halted core (60_exceptions R299), a fault is raised (R293), or an
instruction completes and the interrupt check follows (R298). -/
inductive StepEffect (s : State) : State → Prop
  | halted (hmode : s.mode = .halted) : StepEffect s s
  | raised {u : State} {cause : Cause} {info : Word} (hmoves : MovesSpPc s u) (hfits : FaultFits s cause info) :
      StepEffect s (u.raise cause info)
  | completed {u : State} (hmode : s.mode = .running) (hkept : Kept s u)
      (hcalls : u.hookCalls = s.hookCalls ∨ ∃ n, u.hookCalls = n :: s.hookCalls) : StepEffect s u.serviceIrq

/-- What an instruction keeps of the fetched state, it keeps of the state before the fetch. -/
theorem Kept.of_fetched {s t : State} {v : Word} (h : Kept (s.withPc v) t) : Kept s t where
  mapped := h.mapped
  irq := h.irq
  resets := h.resets
  fault := h.fault
  faultInfo := h.faultInfo
  wf := h.wf
  unmapped := h.unmapped

/-- Every step has a next state, and it is one of the three ends. -/
theorem exists_step_effect (s : State) : ∃ t, step s = .next t ∧ StepEffect s t := by
  cases hmode : s.mode with
  | halted => exact ⟨s, step_of_halted hmode, .halted hmode⟩
  | running =>
    rcases step_of_running hmode with ⟨v, cause, info, hs, hfits, -⟩ | ⟨i, v, r, -, hshape, hr⟩
    · exact ⟨_, hs, .raised (.fetched v) hfits⟩
    · cases r with
      | ok u =>
        obtain ⟨hkept, -, hcalls⟩ := hshape
        exact ⟨_, hr.2, .completed hmode hkept.of_fetched hcalls⟩
      | error u =>
        obtain ⟨cause, info, u, rfl, rfl | ⟨w, rfl⟩, hfits⟩ := hshape
        · exact ⟨_, hr.2, .raised (.fetched v) hfits⟩
        · exact ⟨_, hr.2, .raised (.pushed v w) hfits⟩

theorem step_effect {s t : State} (hstep : step s = .next t) : StepEffect s t := by
  obtain ⟨u, hu, heffect⟩ := exists_step_effect s
  obtain rfl : u = t := by simpa [hu] using hstep
  exact heffect

/-- Settles O9: the ends of a step are all next states. -/
theorem everyStepHasANextState : Obligations.EveryStepHasANextState := by
  intro s
  obtain ⟨t, hstep, -⟩ := exists_step_effect s
  exact ⟨t, hstep⟩

/-! ### What a raise leaves (60_exceptions R293, R294) -/

section
variable {s u : State} (h : MovesSpPc s u)
include h

theorem MovesSpPc.reg {q : Reg} (hsp : q ≠ .sp) (hpc : q ≠ .pc) : u.reg q = s.reg q := by
  cases h with
  | fetched v => rw [State.reg_withPc, if_neg hpc]
  | pushed v w => rw [State.advanceSp, State.reg_writeReg_other _ _ hsp, State.reg_withPc, if_neg hpc]

theorem MovesSpPc.flags : u.flags = s.flags := by cases h <;> rfl

theorem MovesSpPc.mem : u.mem = s.mem := by cases h <;> rfl

theorem MovesSpPc.mapped : u.mapped = s.mapped := by cases h <;> rfl

theorem MovesSpPc.irq : u.irq = s.irq := by cases h <;> rfl

theorem MovesSpPc.hookCalls : u.hookCalls = s.hookCalls := by cases h <;> rfl

end

/-! ### What the interrupt check leaves (60_exceptions R297, R298) -/

@[simp] theorem State.serviceIrq_fault (s : State) : s.serviceIrq.fault = s.fault := by
  rcases s.serviceIrq_cases with h | ⟨n, -, -, h⟩ <;> rw [h]
  rfl

/-- The request stays and the hook is not called, or the request is withdrawn and the hook called with its number. -/
theorem State.serviceIrq_request (s : State) :
    (s.serviceIrq.irq = s.irq ∧ s.serviceIrq.hookCalls = s.hookCalls) ∨
      ∃ n, s.irq = some n ∧ s.serviceIrq.irq = none ∧ s.serviceIrq.hookCalls = n :: s.hookCalls := by
  rcases s.serviceIrq_cases with h | ⟨n, hirq, -, h⟩ <;> rw [h]
  · exact .inl ⟨rfl, rfl⟩
  · exact .inr ⟨n, hirq, rfl, rfl⟩

/-! ### The invariant (60_exceptions R291, R293) -/

/-- Whether a fault record fits depends on the latch, its companion and the mapping. -/
theorem State.faultRecordOk_congr {s t : State} (hfault : t.fault = s.fault) (hinfo : t.faultInfo = s.faultInfo)
    (hmapped : t.mapped = s.mapped) : t.faultRecordOk ↔ s.faultRecordOk := by
  simp only [State.faultRecordOk, hfault, hinfo, State.portOk_congr hmapped]

theorem FaultFits.congr {s t : State} {cause : Cause} {info : Word} (hmapped : t.mapped = s.mapped)
    (h : FaultFits s cause info) : FaultFits t cause info := by
  cases cause with
  | none | unknownOpcode | divideByZero => exact h
  | unmappedAddress => exact (State.portOk_congr hmapped info 4).trans h

/-- A raise whose cause and companion fit latches a record that fits, in a halted core. -/
theorem State.inv_raise {s : State} {cause : Cause} {info : Word} (hwf : s.mem.wf = true)
    (hfits : FaultFits s cause info) : (s.raise cause info).Inv where
  memWf := hwf
  runningNoFault hrun := by simp at hrun
  faultRecord := by
    cases cause with
    | none => exact hfits.elim
    | unknownOpcode | divideByZero | unmappedAddress => exact hfits

/-- What keeps memory's form, the fault record and the mapping keeps the invariant, unless it sets the core running. -/
theorem State.Inv.of_kept {s t : State} (hs : s.Inv) (hkept : Kept s t) (hmode : t.mode = .running → s.mode = .running) :
    t.Inv where
  memWf := hkept.wf hs.memWf
  runningNoFault hrun := hkept.fault.trans (hs.runningNoFault (hmode hrun))
  faultRecord := (State.faultRecordOk_congr hkept.fault hkept.faultInfo hkept.mapped).mpr hs.faultRecord

theorem State.Inv.withIrq {s : State} (hs : s.Inv) (request : Option Byte) : (s.withIrq request).Inv where
  memWf := hs.memWf
  runningNoFault := hs.runningNoFault
  faultRecord := hs.faultRecord

theorem State.Inv.serviceIrq {s : State} (hs : s.Inv) : s.serviceIrq.Inv := by
  rcases s.serviceIrq_cases with h | ⟨n, -, -, h⟩ <;> rw [h]
  · exact hs
  · exact (hs.withIrq none).of_kept (kept_callHook _ n) id

/-- Settles O10, by the three ends of a step. -/
theorem everyStepKeepsTheInvariant : Obligations.EveryStepKeepsTheInvariant := by
  intro s t hs hstep
  cases step_effect hstep with
  | halted => exact hs
  | raised hmoves hfits =>
    exact State.inv_raise (by rw [hmoves.mem, hs.memWf]) (hfits.congr hmoves.mapped)
  | completed hmode hkept => exact (hs.of_kept hkept fun _ => hmode).serviceIrq

/-! ### A halted core (60_exceptions R299) -/

theorem runWithin_of_halted {s : State} (hmode : s.mode = .halted) (k : Nat) : runWithin k s = .next s := by
  cases k with
  | zero => rfl
  | succ k => simp [runWithin, hmode]

/-- Settles O8: a step that changes nothing changes nothing however often it is taken. -/
theorem haltedCoreStaysAsItIs : Obligations.HaltedCoreStaysAsItIs := fun k _ hmode =>
  ⟨step_of_halted hmode, core_run_of_fixed (step_of_halted hmode) k, runWithin_of_halted hmode k⟩

/-! ### A step that latches a fault (60_exceptions R293, R294) -/

/-- Settles O14: of the three ends only the raise writes the latch. -/
theorem faultingStepWritesOnlySpAndPc : Obligations.FaultingStepWritesOnlySpAndPc := by
  intro s t hclear hstep hlatched
  cases step_effect hstep with
  | halted => exact absurd hclear hlatched
  | @raised u cause info hmoves =>
    have hregs (q : Reg) (hsp : q ≠ .sp) (hpc : q ≠ .pc) : (u.raise cause info).reg q = s.reg q :=
      (u.reg_raise cause info q).trans (hmoves.reg hsp hpc)
    exact ⟨rfl, hregs, hmoves.flags, State.byteAt_congr hmoves.mem, hmoves.irq, hmoves.hookCalls⟩
  | completed _ hkept => exact absurd ((State.serviceIrq_fault _).trans (hkept.fault.trans hclear)) hlatched

/-! ### The request and the hook (60_exceptions R297, R298) -/

/-- Settles O15: the hook calls before the interrupt check are those of the instruction, at most one. -/
theorem requestsAreConsumedByAHookCall : Obligations.RequestsAreConsumedByAHookCall := by
  intro s t hstep
  cases step_effect hstep with
  | halted => exact ⟨[], by simp, .inl ⟨rfl, rfl⟩⟩
  | raised hmoves => exact ⟨[], by simp, .inl ⟨hmoves.irq, hmoves.hookCalls⟩⟩
  | @completed u hmode hkept hcalls =>
    obtain ⟨calls, hlen, hu⟩ : ∃ calls : List Byte, calls.length ≤ 1 ∧ u.hookCalls = calls ++ s.hookCalls := by
      rcases hcalls with hnone | ⟨n, hone⟩
      · exact ⟨[], by simp, hnone⟩
      · exact ⟨[n], by simp, hone⟩
    refine ⟨calls, hlen, ?_⟩
    rcases u.serviceIrq_request with ⟨hirq, hsame⟩ | ⟨n, hrequest, hwithdrawn, hcall⟩
    · exact .inl ⟨hirq.trans hkept.irq, hsame.trans hu⟩
    · exact .inr ⟨n, hkept.irq.symm.trans hrequest, hwithdrawn, hmode, by rw [hcall, hu, List.cons_append]⟩

end Sys2Proof.Machine

/-! What the host does between steps (70_reset): the stream it places in memory, and each field of the state after a
reset event. -/

namespace Sys2Proof.Machine

/-! ### A loaded stream (70_reset R322) -/

@[simp] theorem State.loadProgram_mem (s : State) (base : Word) (stream : List Byte) :
    (s.loadProgram base stream).mem = s.mem.writeBytes base stream := rfl

/-- A stream that does not meet itself around the address space reads back where it was placed. -/
theorem State.byteAt_loadProgram_same {s : State} (hwf : s.mem.wf = true) (base : Word) {stream : List Byte}
    (hlen : stream.length ≤ 2 ^ 32) {k : Nat} (hk : k < stream.length) :
    (s.loadProgram base stream).byteAt (base + BitVec.ofNat 32 k) = stream[k] := by
  rw [State.byteAt, State.loadProgram_mem]
  exact Memory.read_writeBytes_same base stream hwf hlen hk

theorem State.byteAt_loadProgram_other (s : State) {base a : Word} {stream : List Byte}
    (ha : ∀ k : Nat, k < stream.length → a ≠ base + BitVec.ofNat 32 k) :
    (s.loadProgram base stream).byteAt a = s.byteAt a := by
  rw [State.byteAt, State.loadProgram_mem]
  exact Memory.read_writeBytes_other ha

/-- Settles O19, by the laws of memory for an address inside and outside the stream. -/
theorem loadedStreamReadsBack : Obligations.LoadedStreamReadsBack := fun s base _ hwf hlen =>
  ⟨fun _ hk => State.byteAt_loadProgram_same hwf base hlen hk, fun _ ha => s.byteAt_loadProgram_other ha⟩

/-! ### The reset event (70_reset R320) -/

@[simp] theorem State.resetEvent_pc (s : State) : s.resetEvent.pc = Config.resetPc := rfl
@[simp] theorem State.resetEvent_flags (s : State) : s.resetEvent.flags = Flags.zero := rfl
@[simp] theorem State.resetEvent_mode (s : State) : s.resetEvent.mode = .running := rfl
@[simp] theorem State.resetEvent_fault (s : State) : s.resetEvent.fault = .none := rfl
@[simp] theorem State.resetEvent_faultInfo (s : State) : s.resetEvent.faultInfo = 0#32 := rfl
@[simp] theorem State.resetEvent_mem (s : State) : s.resetEvent.mem = s.mem := rfl
@[simp] theorem State.resetEvent_mapped (s : State) : s.resetEvent.mapped = s.mapped := rfl
@[simp] theorem State.resetEvent_irq (s : State) : s.resetEvent.irq = s.irq := rfl

/-- Settles O18: the event's fields one by one, then those of `State.reset`, which its definition lists. -/
theorem resetWritesWhatItsRuleLists : Obligations.ResetWritesWhatItsRuleLists :=
  ⟨fun s => ⟨s.resetEvent_pc, s.resetEvent_flags, s.resetEvent_mode, s.resetEvent_fault, s.resetEvent_faultInfo,
      s.resetEvent.reg_zero, State.byteAt_congr s.resetEvent_mem, s.resetEvent_mapped, s.resetEvent_irq⟩,
    rfl, rfl, rfl, rfl, rfl⟩

end Sys2Proof.Machine
